-- ==== Sys2Proof/Word.lean ====
section
/-! DEFINITION. The words of the HN-416: what the manual treats as bits (spec/00_scope.md 4.2, 4.3), and the index types. -/

namespace Sys2Proof

/-- Eight bits (spec/00_scope.md 4.2). -/
abbrev Octet := BitVec 8

/-- A 24-bit sample word (spec/00_scope.md 4.2). -/
abbrev Sample := BitVec 24

/-- A superframe number, 0..65535, wrapping (R2). -/
abbrev Superframe := BitVec 16

/-- A payload slot, 0..47. -/
abbrev Slot := Fin 48

/-- A local channel, 0..31. -/
abbrev Channel := Fin 32

/-- A watch entry, 0..15. -/
abbrev WatchId := Fin 16

/-- An event class, 0..7. -/
abbrev ClassId := Fin 8

/-- The 48 sample words of a frame's payload (R1, R8). -/
abbrev Payload := Vector Sample 48

/-- The 32 samples of a local frame, an add frame or a drop frame (R71). -/
abbrev LocalSamples := Vector Sample 32

end Sys2Proof
end

