-- ==== Sys2Proof/Syntax.lean ====
section
/-! DEFINITION. The commands of the block: one constructor of `Instr` for each row of spec/opcode_table.json, and the types
of their operands. -/

namespace Sys2Proof

/-- Frame index and superframe number of a frame (R2). -/
structure FrameNumber where
  index : BitVec 4
  superframe : Superframe
  deriving DecidableEq, Repr

/-- The service field of a frame: a control octet and three data octets (R109, spec/12 12.2). -/
structure Segment where
  control : Octet
  data1 : Octet
  data2 : Octet
  data3 : Octet
  deriving DecidableEq, Repr

/-- A ring frame, field by field in the order of sending (R1). Any 1240 bits are one value of this type. -/
structure Frame where
  sync : BitVec 12
  number : FrameNumber
  hop : BitVec 6
  uf : Bool
  em : Bool
  service : Segment
  payload : Payload
  check : BitVec 16
  deriving DecidableEq, Repr

/-- The form of the destination by which a request reached the node (R114, R132). -/
inductive DestinationForm
  | address
  | position
  | broadcast
  deriving DecidableEq, Repr

/-- What a delivered request brings beside its operation and parameters: the form it was consumed by, its source octet,
its sequence, and the two facts of its arrival frame (R56, R118, R133). -/
structure Delivery where
  form : DestinationForm
  source : Octet
  sequence : Octet
  superframe : Superframe
  ringTime : Bool
  deriving DecidableEq, Repr

/-- The commands. Events of the ring, of the pins and of time come first, in the order of the table; a management
operation is the delivery of one request of that operation to the Management Engine (R133), with its parameter octets as
sent. -/
inductive Instr
  /-- POWER_ON (R184): supplies and REFCLK are stable; the level of RESET_N and whether a clock is recovered on ring-in. -/
  | powerOn (resetHigh carrier : Bool)
  /-- HARDWARE_RESET_ASSERT (R184): RESET_N falls. -/
  | hardwareResetAssert
  /-- HARDWARE_RESET_RELEASE (R184, R34): RESET_N rises; whether a clock is recovered on ring-in at that moment. -/
  | hardwareResetRelease (carrier : Bool)
  /-- SIGNAL_LOST (R14): no recovered clock for 2 frame periods. -/
  | signalLost
  /-- SIGNAL_BACK (R15): the recovered clock returns. -/
  | signalBack
  /-- FRAME_DUE_WITHOUT_CLOCK (R13): the expected end of a frame without a clock; the bits that had arrived. -/
  | frameDueWithoutClock (received : List Bool)
  /-- HUNT_CANDIDATE (R16): a candidate frame completes. `none`: the search runs on through the bits kept by R18. -/
  | huntCandidate (candidate : Option Frame)
  /-- CONFIRM_FRAME (R17): a frame at the expected position has arrived in CONFIRM. -/
  | confirmFrame (f : Frame)
  /-- FRAME_CLASSIFIED (R19): a frame at the expected position has arrived in ALIGNED. -/
  | frameClassified (f : Frame)
  /-- SUBSTITUTE_FRAME_START (R10). -/
  | substituteFrameStart
  /-- FORWARDED_FRAME_START (R29). -/
  | forwardedFrameStart
  /-- PAYLOAD_COMPLETE (R51). -/
  | payloadComplete
  /-- OWN_PACKET_COMPLETE (R127). -/
  | ownPacketComplete
  /-- FORWARDED_END_REPORT (R144): the report names its request by the number the Service Channel Unit gave it. -/
  | forwardedEndReport (request : Nat)
  /-- LOCAL_FRAME_START (R77). -/
  | localFrameStart
  /-- LOCAL_FRAME_COMPLETE (R78): edge 768, with the add frame sampled from LDI. -/
  | localFrameComplete (add : LocalSamples)
  /-- LOCAL_TIMING_LOST (R85). -/
  | localTimingLost
  /-- RETRY_TIMER_EXPIRY (R164) of one class. -/
  | retryTimerExpiry (cls : ClassId)
  /-- TAKE_REQUEST (R136). -/
  | takeRequest
  /-- IDENTIFY (R194). -/
  | identify (d : Delivery) (params : List Octet)
  /-- ASSIGN_ADDRESS (R191). -/
  | assignAddress (d : Delivery) (params : List Octet)
  /-- READ_STATUS (R181). -/
  | readStatus (d : Delivery) (params : List Octet)
  /-- SET_IDLE_WORD (R12): WRITE_NODE_SETUP that selects the idle word. -/
  | setIdleWord (d : Delivery) (word : Sample)
  /-- SET_QUALITY_THRESHOLD (R25): WRITE_NODE_SETUP that selects the quality threshold. -/
  | setQualityThreshold (d : Delivery) (threshold : BitVec 16)
  /-- SET_FORCED_REHUNT (R25): WRITE_NODE_SETUP that selects forced re-hunt. -/
  | setForcedRehunt (d : Delivery) (code : Octet)
  /-- SET_LOCAL_MODE (R87): WRITE_NODE_SETUP that selects the local mode. -/
  | setLocalMode (d : Delivery) (code : Octet)
  /-- SET_RETRY_TIME (R163): WRITE_NODE_SETUP that selects the retry time. -/
  | setRetryTime (d : Delivery) (time : Octet)
  /-- WRITE_MAP (R40). -/
  | writeMap (d : Delivery) (params : List Octet)
  /-- READ_MAP (R41). -/
  | readMap (d : Delivery) (params : List Octet)
  /-- COPY_ACTIVE (R42). -/
  | copyActive (d : Delivery) (params : List Octet)
  /-- CHECK_MAP (R43). -/
  | checkMap (d : Delivery) (params : List Octet)
  /-- SCHEDULE_SWITCH (R58). -/
  | scheduleSwitch (d : Delivery) (params : List Octet)
  /-- CANCEL_SWITCH (R61). -/
  | cancelSwitch (d : Delivery) (params : List Octet)
  /-- WRITE_WATCH (R104). -/
  | writeWatch (d : Delivery) (params : List Octet)
  /-- READ_WATCH (R105). -/
  | readWatch (d : Delivery) (params : List Octet)
  /-- WRITE_EVENT_SETUP (R169). -/
  | writeEventSetup (d : Delivery) (params : List Octet)
  /-- READ_CLASS (R170). -/
  | readClass (d : Delivery) (params : List Octet)
  /-- DISCARD_CLASS (R171). -/
  | discardClass (d : Delivery) (params : List Octet)
  /-- READ_COUNTERS (R178) with the clear flag 0; the seven reserved bits of the clear octet. -/
  | readCounters (d : Delivery) (reserved : BitVec 7)
  /-- READ_COUNTERS with the clear flag 1 (R179); the seven reserved bits of the clear octet. -/
  | readCountersClear (d : Delivery) (reserved : BitVec 7)
  /-- RESET_NODE with scope COLD (R186). -/
  | resetNodeCold (d : Delivery)
  /-- RESET_NODE with scope WARM (R186). -/
  | resetNodeWarm (d : Delivery)
  /-- EMITTED_FRAME_BOUNDARY (R144): the emitted frame in progress ends. -/
  | emittedFrameBoundary
  /-- WRITE_NODE_SETUP (R146). -/
  | writeNodeSetup (d : Delivery) (params : List Octet)
  deriving DecidableEq, Repr

end Sys2Proof
end

