-- ==== Sys2Proof/Machine/Formats.lean ====
section
/-! DEFINITION. The layouts of spec/12: frames as bits, the frame check, segments, packets and station octets; frame
numbering and superframe arithmetic. -/

namespace Sys2Proof.Machine

/-! ### Frame numbering (R2) and superframe arithmetic (spec/00_scope.md 4.4) -/

/-- The successor of a frame number (R2). -/
def successor (n : FrameNumber) : FrameNumber :=
  if n.index = 15#4 then ⟨0#4, n.superframe + 1#16⟩ else ⟨n.index + 1#4, n.superframe⟩

/-- Whether a frame number is that of a superframe start: index 0 (R2, R21). -/
def FrameNumber.isStart (n : FrameNumber) : Bool := n.index = 0#4

/-- T is ahead of C: (T − C) mod 65536 lies in 1..32767 (spec/00_scope.md 4.4). -/
def isAhead (t c : Superframe) : Bool := 1 ≤ (t - c).toNat && (t - c).toNat ≤ 32767

/-! ### Bits and octets: most significant first (spec/12) -/

/-- The bits of a word in the order of sending. -/
def bitsOf {w : Nat} (x : BitVec w) : List Bool := (List.range w).map fun i => x.getMsbD i

/-- The word of width `w` that a list of bits spells, the first bit being the most significant. -/
def ofBits (w : Nat) (bs : List Bool) : BitVec w := BitVec.ofNat w (bs.foldl (fun n b => 2 * n + b.toNat) 0)

/-- A 16-bit value as two octets, the high octet first. -/
def octets16 (x : BitVec 16) : List Octet := [x.extractLsb' 8 8, x.extractLsb' 0 8]

/-- A 24-bit value as three octets, the high octet first. -/
def octets24 (x : Sample) : List Octet := [x.extractLsb' 16 8, x.extractLsb' 8 8, x.extractLsb' 0 8]

/-- A count as one octet. -/
def octetOf (n : Nat) : Octet := BitVec.ofNat 8 n

/-- A truth value as one octet, 01h or 00h. -/
def octetOfBool (b : Bool) : Octet := if b then 1#8 else 0#8

/-! ### The frame check (R5) -/

/-- One covered bit of the check computation (R5). -/
def checkStep (reg : BitVec 16) (b : Bool) : BitVec 16 :=
  if reg.msb ^^ b then (reg <<< 1) ^^^ 0x1021#16 else reg <<< 1

/-- The check over a list of bits, preset FFFFh (R5). -/
def checkOf (bs : List Bool) : BitVec 16 := bs.foldl checkStep 0xFFFF#16

/-- The sync word of every frame (R1). -/
def syncWord : BitVec 12 := 0x9C7#12

/-- The bits of a service field, octet by octet (R1, spec/12 12.1). -/
def Segment.bits (g : Segment) : List Bool :=
  bitsOf g.control ++ bitsOf g.data1 ++ bitsOf g.data2 ++ bitsOf g.data3

/-- The 1212 bits that the frame check covers: all after the sync word and before the check (R1). -/
def Frame.covered (f : Frame) : List Bool :=
  bitsOf f.number.index ++ bitsOf f.number.superframe ++ bitsOf f.hop ++ [f.uf, f.em] ++ Segment.bits f.service ++
    f.payload.toList.flatMap bitsOf

/-- The 1240 bits of a frame in the order of sending (R1). -/
def Frame.bits (f : Frame) : List Bool := bitsOf f.sync ++ Frame.covered f ++ bitsOf f.check

/-- The check a frame ought to carry (R5). -/
def Frame.properCheck (f : Frame) : BitVec 16 := checkOf (Frame.covered f)

/-- Whether the frame's check passes (R5). -/
def Frame.checkPasses (f : Frame) : Bool := Frame.properCheck f = f.check

/-- Whether the frame's sync word is 9C7h. -/
def Frame.syncFound (f : Frame) : Bool := f.sync = syncWord

/-- The field of `w` bits that starts at bit `at0` of a bit stream. -/
def fieldAt (w at0 : Nat) (bs : List Bool) : BitVec w := ofBits w ((bs.drop at0).take w)

/-- The frame that 1240 bits spell, at the places of spec/12 12.1. Bits missing at the end read as 0 (R13). -/
def Frame.ofBits (received : List Bool) : Frame :=
  let bs := received ++ List.replicate (1240 - received.length) false
  { sync := fieldAt 12 0 bs
    number := ⟨fieldAt 4 12 bs, fieldAt 16 16 bs⟩
    hop := fieldAt 6 32 bs
    uf := bs.getD 38 false
    em := bs.getD 39 false
    service := ⟨fieldAt 8 40 bs, fieldAt 8 48 bs, fieldAt 8 56 bs, fieldAt 8 64 bs⟩
    payload := Vector.ofFn fun s => fieldAt 24 (72 + 24 * s.val) bs
    check := fieldAt 16 1224 bs }

/-! ### Segments (R109, spec/12 12.2) -/

/-- The kinds of a segment (R109). -/
inductive SegmentKind
  | idle
  | start
  | middle
  | ending
  | single
  | abort
  deriving DecidableEq, Repr

/-- The kind code of a segment (spec/12 12.2). -/
def SegmentKind.code : SegmentKind → Octet
  | .idle => 0x0#8
  | .start => 0x1#8
  | .middle => 0x2#8
  | .ending => 0x3#8
  | .single => 0x4#8
  | .abort => 0x5#8

/-- The kind that the control octet names, bits 7..4; none for the codes 6h..Fh (spec/12 12.2). -/
def Segment.kind (g : Segment) : Option SegmentKind :=
  match (g.control >>> 4).toNat with
  | 0 => some .idle
  | 1 => some .start
  | 2 => some .middle
  | 3 => some .ending
  | 4 => some .single
  | 5 => some .abort
  | _ => none

/-- The count of valid data octets, bits 1..0 of the control octet (spec/12 12.2). -/
def Segment.count (g : Segment) : Nat := (g.control &&& 3#8).toNat

/-- Whether a kind allows a count (R109). -/
def SegmentKind.allows (k : SegmentKind) (n : Nat) : Bool :=
  match k with
  | .idle => n == 0
  | .abort => n == 0
  | _ => 1 ≤ n

/-- A received segment read (R109): its kind and its valid octets, or none if it is invalid. -/
def Segment.read (g : Segment) : Option (SegmentKind × List Octet) :=
  match Segment.kind g with
  | none => none
  | some k =>
    if SegmentKind.allows k (Segment.count g) then some (k, [g.data1, g.data2, g.data3].take (Segment.count g))
    else none

/-- A segment the node builds: its octets in order, the other data octets and the reserved bits 0 (R109, R196). -/
def Segment.build (k : SegmentKind) (octets : List Octet) : Segment :=
  { control := (SegmentKind.code k <<< 4) ||| octetOf octets.length
    data1 := octets.getD 0 0#8
    data2 := octets.getD 1 0#8
    data3 := octets.getD 2 0#8 }

/-- The IDLE segment the node builds: four octets of 00h (spec/12 12.2). -/
def idleSegment : Segment := ⟨0#8, 0#8, 0#8, 0#8⟩

/-! ### Station octets (R132, spec/12 12.3) -/

/-- The P flag of a station octet (bit 6). -/
def stationIsPosition (o : Octet) : Bool := o.getLsbD 6

/-- The 6-bit value of a station octet (bits 5..0). -/
def stationValue (o : Octet) : BitVec 6 := o.extractLsb' 0 6

/-- A station octet in address form. -/
def stationOfAddress (a : BitVec 6) : Octet := 0#2 ++ a

/-- A station octet in position form. -/
def stationOfPosition (p : BitVec 6) : Octet := 1#2 ++ p

/-- The octet for an address or a position, FFh when absent (spec/12 12.3). -/
def octetOrAbsent (x : Option (BitVec 6)) : Octet :=
  match x with
  | some v => 0#2 ++ v
  | none => 0xFF#8

/-! ### Packets (R131, spec/12 12.3) -/

/-- A management packet without its two derived fields, the parameter length and the check (R131). -/
structure Packet where
  destination : Octet
  source : Octet
  kind : Octet
  sequence : Octet
  operation : Octet
  params : List Octet
  deriving DecidableEq, Repr

/-- The check over a list of octets, each most significant bit first (R131). -/
def octetsCheck (os : List Octet) : BitVec 16 := checkOf (os.flatMap bitsOf)

/-- A packet's octets before the check: the header, the parameter length and the parameters (R131). -/
def Packet.body (p : Packet) : List Octet :=
  [p.destination, p.source, p.kind, p.sequence, p.operation, octetOf p.params.length] ++ p.params

/-- A packet's octets as the node emits them, with the check computed by R131. -/
def Packet.octets (p : Packet) : List Octet := Packet.body p ++ octets16 (octetsCheck (Packet.body p))

/-- The length test of R117. -/
def lengthTest (os : List Octet) : Bool :=
  8 ≤ os.length && (os.getD 5 0#8).toNat ≤ 56 && os.length == 8 + (os.getD 5 0#8).toNat

/-- The check test of R117, over every octet but the last two. -/
def checkTest (os : List Octet) : Bool :=
  octets16 (octetsCheck (os.take (os.length - 2))) == os.drop (os.length - 2)

/-- An assembly read as a packet, or none when a test of R117 fails. -/
def Packet.ofOctets (os : List Octet) : Option Packet :=
  if lengthTest os && checkTest os then
    some { destination := os.getD 0 0#8, source := os.getD 1 0#8, kind := os.getD 2 0#8, sequence := os.getD 3 0#8,
           operation := os.getD 4 0#8, params := (os.drop 6).take (os.length - 8) }
  else none

/-- The kinds of a packet (spec/12 12.3). -/
inductive PacketKind
  | request
  | reply
  | notify
  | ack
  deriving DecidableEq, Repr

/-- The code of a packet kind, with R 0 (spec/12 12.3). -/
def PacketKind.code : PacketKind → Octet
  | .request => 0x01#8
  | .reply => 0x02#8
  | .notify => 0x03#8
  | .ack => 0x04#8

/-- The kind that bits 3..0 of the kind octet name (R118, R196). -/
def Packet.namedKind (p : Packet) : Option PacketKind :=
  match (p.kind &&& 0x0F#8).toNat with
  | 1 => some .request
  | 2 => some .reply
  | 3 => some .notify
  | 4 => some .ack
  | _ => none

/-- The packet with the repeat flag R set, bit 7 of the kind octet (R137, R164). Its check follows its fields. -/
def Packet.repeated (p : Packet) : Packet := { p with kind := p.kind ||| 0x80#8 }

/-! ### Event kinds (R151, spec/12 12.8) -/

/-- The 21 event kinds (R151). -/
inductive EventKind
  | signalLost
  | alignLost
  | signalBack
  | alignGained
  | upstreamFault
  | upstreamClear
  | switchDone
  | switchLate
  | switchRefused
  | localTimingLost
  | localTimingBack
  | watchSilent
  | watchResumed
  | watchChanged
  | dropSlip
  | addSlip
  | qualityLow
  | positionChanged
  | transitOverflow
  | requestDropped
  | notifierQuiet
  deriving DecidableEq, Repr

/-- A kind's place in the kind table, the kind number less 1 (spec/12 12.8). -/
def EventKind.index : EventKind → Fin 21
  | .signalLost => 0
  | .alignLost => 1
  | .signalBack => 2
  | .alignGained => 3
  | .upstreamFault => 4
  | .upstreamClear => 5
  | .switchDone => 6
  | .switchLate => 7
  | .switchRefused => 8
  | .localTimingLost => 9
  | .localTimingBack => 10
  | .watchSilent => 11
  | .watchResumed => 12
  | .watchChanged => 13
  | .dropSlip => 14
  | .addSlip => 15
  | .qualityLow => 16
  | .positionChanged => 17
  | .transitOverflow => 18
  | .requestDropped => 19
  | .notifierQuiet => 20

/-- The kind number, 01h..15h (spec/12 12.8). -/
def EventKind.number (k : EventKind) : Octet := octetOf (k.index.val + 1)

/-- The coalescing kinds (R151). -/
def EventKind.coalesces : EventKind → Bool
  | .dropSlip => true
  | .addSlip => true
  | .qualityLow => true
  | .transitOverflow => true
  | .requestDropped => true
  | _ => false

/-- The default classes in kind-number order (R151). -/
def defaultClasses : Vector ClassId 21 :=
  #v[0, 0, 1, 1, 1, 1, 2, 2, 2, 3, 3, 4, 4, 4, 5, 5, 6, 6, 7, 7, 7]

/-! ### Operations and reply codes (spec/12 12.8, R145) -/

/-- The seventeen operations (R138). -/
inductive Operation
  | identify
  | assignAddress
  | readStatus
  | writeNodeSetup
  | writeMap
  | readMap
  | copyActive
  | checkMap
  | scheduleSwitch
  | cancelSwitch
  | writeWatch
  | readWatch
  | writeEventSetup
  | readClass
  | discardClass
  | readCounters
  | resetNode
  deriving DecidableEq, Repr

/-- The operation number (spec/12 12.8). -/
def Operation.number : Operation → Octet
  | .identify => 0x01#8
  | .assignAddress => 0x02#8
  | .readStatus => 0x03#8
  | .writeNodeSetup => 0x04#8
  | .writeMap => 0x05#8
  | .readMap => 0x06#8
  | .copyActive => 0x07#8
  | .checkMap => 0x08#8
  | .scheduleSwitch => 0x09#8
  | .cancelSwitch => 0x0A#8
  | .writeWatch => 0x0B#8
  | .readWatch => 0x0C#8
  | .writeEventSetup => 0x0D#8
  | .readClass => 0x0E#8
  | .discardClass => 0x0F#8
  | .readCounters => 0x10#8
  | .resetNode => 0x11#8

/-- The operation that an operation octet names; none for 00h and 12h..FFh (spec/12 12.8). -/
def operationOf (o : Octet) : Option Operation :=
  match o.toNat with
  | 0x01 => some .identify
  | 0x02 => some .assignAddress
  | 0x03 => some .readStatus
  | 0x04 => some .writeNodeSetup
  | 0x05 => some .writeMap
  | 0x06 => some .readMap
  | 0x07 => some .copyActive
  | 0x08 => some .checkMap
  | 0x09 => some .scheduleSwitch
  | 0x0A => some .cancelSwitch
  | 0x0B => some .writeWatch
  | 0x0C => some .readWatch
  | 0x0D => some .writeEventSetup
  | 0x0E => some .readClass
  | 0x0F => some .discardClass
  | 0x10 => some .readCounters
  | 0x11 => some .resetNode
  | _ => none

/-- Whether an operation is executed when broadcast (R133, R138). -/
def Operation.executedWhenBroadcast : Operation → Bool
  | .scheduleSwitch => true
  | .cancelSwitch => true
  | .resetNode => true
  | _ => false

/-- The reply codes (R145). -/
inductive ReplyCode
  | ok
  | badLength
  | badParameter
  | unknownOperation
  | wrongState
  | conflict
  | tooLate
  | noRingTime
  deriving DecidableEq, Repr

/-- A reply code's octet (R145). -/
def ReplyCode.octet : ReplyCode → Octet
  | .ok => 0x00#8
  | .badLength => 0x01#8
  | .badParameter => 0x02#8
  | .unknownOperation => 0x03#8
  | .wrongState => 0x04#8
  | .conflict => 0x05#8
  | .tooLate => 0x06#8
  | .noRingTime => 0x07#8

end Sys2Proof.Machine
end

