-- ==== Sys2Proof/Machine/Blocks.lean ====
section
/-! DEFINITION. The state that each block of the node owns (spec/00_scope.md 2), as plain data, and the values a hardware
reset gives it. -/

namespace Sys2Proof.Machine

/-! ### Frame Aligner (spec/02 2.1) -/

/-- The aligner's state (spec/02). -/
inductive AlignState
  | noSignal
  | hunt
  | confirm
  | aligned
  deriving DecidableEq, Repr

/-- The state held by the Frame Aligner (spec/02 2.1, R18). -/
structure Aligner where
  align : AlignState
  /-- Whether ring-in carries a recovered clock (R13). -/
  carrier : Bool
  /-- The frame number most recently counted (R22). -/
  flywheel : FrameNumber
  consecutiveBad : Nat
  confirmCount : Nat
  windowCount : Nat
  /-- QUALITY_LOW has been recorded in the current window (R24). -/
  windowReported : Bool
  /-- 0 is off (R24). -/
  threshold : Nat
  forcedRehunt : Bool
  /-- 1..62, or unknown (R26). -/
  position : Option (BitVec 6)
  /-- UF of the last good frame classified in ALIGNED (R27). -/
  lastUf : Bool
  /-- The candidate and the confirming frames received since its sync word (R18). -/
  underTest : List Frame
  /-- Bits already received that belong to no frame yet: HUNT searches them before new ones, and CONFIRM takes its frames from
  them before new ones (R18). -/
  keptBits : List Bool
  deriving DecidableEq, Repr

/-- The aligner after a hardware or cold reset, by the carrier it finds (R34). -/
def Aligner.hardware (carrier : Bool) : Aligner :=
  { align := if carrier then .hunt else .noSignal, carrier := carrier, flywheel := ⟨0#4, 0#16⟩, consecutiveBad := 0
    confirmCount := 0, windowCount := 0, windowReported := false, threshold := 0, forcedRehunt := false
    position := none, lastUf := false, underTest := [], keptBits := [] }

/-! ### Watch Unit (spec/06 6.1) -/

/-- What counts as activity (spec/06 6.1). -/
inductive WatchMode
  | activity
  | change
  deriving DecidableEq, Repr

/-- Whether activity is a match or a difference (spec/06 6.1). -/
inductive Sense
  | matching
  | differing
  deriving DecidableEq, Repr

/-- What a SILENT status does beyond recording events (spec/06 6.1). -/
inductive Consequence
  | notify
  | substitute
  deriving DecidableEq, Repr

/-- A watch's status (spec/06 6.1). -/
inductive WatchStatus
  | active
  | silent
  deriving DecidableEq, Repr

/-- The setup fields of a watch (spec/06 6.1). -/
structure WatchSetup where
  enabled : Bool
  slot : Slot
  mode : WatchMode
  sense : Sense
  value : Sample
  mask : Sample
  /-- 1..4095 superframe starts. -/
  limit : Nat
  /-- 1..15 evaluated frames. -/
  debounce : Nat
  consequence : Consequence
  deriving DecidableEq, Repr

/-- A watch entry: setup and dynamic fields (R91). -/
structure Watch where
  setup : WatchSetup
  status : WatchStatus
  silence : Nat
  stable : Option Sample
  candidate : Option Sample
  candidateCount : Nat
  deriving DecidableEq, Repr

/-- A watch restarted under a setup (R104). -/
def Watch.restarted (u : WatchSetup) : Watch :=
  { setup := u, status := .active, silence := u.limit, stable := none, candidate := none, candidateCount := 0 }

/-- The setup of every watch after a hardware or cold reset (R107). -/
def WatchSetup.hardware : WatchSetup :=
  { enabled := false, slot := 0, mode := .activity, sense := .matching, value := 0#24, mask := 0#24, limit := 1
    debounce := 1, consequence := .notify }

/-- The watches after a hardware or cold reset (R107). -/
def watchesHardware : Vector Watch 16 := Vector.replicate 16 (Watch.restarted WatchSetup.hardware)

/-! ### Frame Builder and the emitted cadence (spec/01, spec/02 2.9) -/

/-- What the segment of an emitted frame ends, for the reports of R127. -/
inductive SegmentEnd
  /-- No packet whose end is reported. -/
  | nothing
  /-- The END of an own reply. -/
  | reply
  /-- The END of an own notification, by class and sequence (R160). -/
  | notification (cls : ClassId) (sequence : Octet)
  /-- The END of the forwarded copy of a broadcast request delivered here, by the request's number (R144). -/
  | forwarded (request : Nat)
  deriving DecidableEq, Repr

/-- The emitted frame in progress on ring-out, with its drop frame (R51). -/
structure Emission where
  frame : Frame
  substitute : Bool
  ends : SegmentEnd
  drop : LocalSamples
  /-- The drop frame has been written to the Drop Store (R51). -/
  payloadDone : Bool
  deriving DecidableEq, Repr

/-- A received frame classified in ALIGNED whose forwarded copy has not begun (R9, R29). -/
structure Copy where
  number : FrameNumber
  hop : BitVec 6
  uf : Bool
  em : Bool
  payload : Payload
  /-- R46. -/
  sound : Bool
  /-- The watches whose status the evaluation of this frame changed, each with its status before it (R45). -/
  statusBefore : List (WatchId × WatchStatus)
  deriving DecidableEq, Repr

/-- The Frame Builder's idle word and the emitted cadence (R12, R29 to R33). -/
structure RingOut where
  idleWord : Sample
  /-- The emitted frame in progress; none between frames, in the gap of R31 and while RESET_N is low. -/
  current : Option Emission
  /-- Frames whose forwarded copies are due, oldest first (R29, R32). -/
  copies : List Copy
  /-- The frame now arriving on ring-in will have a forwarded copy: it began after the substitute frame in emission at
  ALIGN_GAINED had completed (R31). -/
  copyArriving : Bool
  /-- The reset pair (0, 0) has not yet been carried by a substitute frame (R22). -/
  resetPairDue : Bool
  deriving DecidableEq, Repr

/-- Frame Builder and cadence after a hardware reset: no frame yet, the frame (0, 0) due (R11, R12). -/
def RingOut.hardware : RingOut :=
  { idleWord := 0#24, current := none, copies := [], copyArriving := false, resetPairDue := true }

/-! ### Map Store and Slot Switch (spec/03, spec/04) -/

/-- An action with the channel it uses, present exactly for TAP, TERMINATE and INSERT (R37). -/
inductive Action
  | pass
  | tap (channel : Channel)
  | terminate (channel : Channel)
  | insert (channel : Channel)
  | mute
  deriving DecidableEq, Repr

/-- What a faulted tap delivers (R49). -/
inductive Substitution
  | hold
  | idle
  | zero
  deriving DecidableEq, Repr

/-- A slot map entry; every value of this type is well formed in the sense of R37. -/
structure Entry where
  action : Action
  substitution : Substitution
  deriving DecidableEq, Repr

/-- A bank of 48 entries, indexed by slot (R36). -/
abbrev Bank := Vector Entry 48

/-- The two banks (R36). -/
inductive BankName
  | a
  | b
  deriving DecidableEq, Repr

/-- The shadow state with the pending target, present exactly in PENDING (R55). -/
inductive ShadowState
  | editable
  | checked
  | pending (target : Superframe)
  deriving DecidableEq, Repr

/-- The state held by the Map Store (R36, R55). -/
structure MapStore where
  bankA : Bank
  bankB : Bank
  active : BankName
  shadow : ShadowState
  deriving DecidableEq, Repr

/-- A bank of PASS entries with substitution IDLE (R53). -/
def passBank : Bank := Vector.replicate 48 ⟨.pass, .idle⟩

/-- The Map Store after a hardware or cold reset (R53). -/
def MapStore.hardware : MapStore := { bankA := passBank, bankB := passBank, active := .a, shadow := .editable }

/-- The last-good samples after a hardware or cold reset (R53). -/
def lastGoodHardware : LocalSamples := Vector.replicate 32 0#24

/-! ### Local Port (spec/05 5.1) -/

/-- Who times the local port (R72). -/
inductive LocalMode
  | disabled
  | follow
  | external
  deriving DecidableEq, Repr

/-- A store's state (R75). -/
inductive StoreState
  | stopped
  | priming
  | running
  deriving DecidableEq, Repr

/-- An elastic store (R75). Its fill is the length of `frames`, oldest first. -/
structure Store where
  state : StoreState
  frames : List LocalSamples
  last : Option LocalSamples
  deriving DecidableEq, Repr

/-- A store emptied on entering a state other than RUNNING (R75). -/
def Store.emptied (st : StoreState) : Store := { state := st, frames := [], last := none }

/-- Local frame progress (R71): edges counted, the add samples received so far, and the frame driven on LDO, if LDO is
driven. -/
structure LocalFrame where
  edges : Nat
  addSoFar : List Sample
  out : Option LocalSamples
  deriving DecidableEq, Repr

/-- The state held by the Local Port (spec/05 5.1). -/
structure LocalPort where
  mode : LocalMode
  drop : Store
  add : Store
  /-- The local timing state is LOST (R85). -/
  timingLost : Bool
  watchdog : Nat
  /-- The share of the next emitted frame mark that R85 takes has been taken by LOCAL_TIMING_LOST (log entry 12). -/
  markTaken : Bool
  localFrame : Option LocalFrame
  /-- In FOLLOW an emitted frame has begun and its local frame has not (R73). -/
  startDue : Bool
  deriving DecidableEq, Repr

/-- The Local Port after a hardware or cold reset (R88). -/
def LocalPort.hardware : LocalPort :=
  { mode := .disabled, drop := Store.emptied .stopped, add := Store.emptied .stopped, timingLost := false, watchdog := 0
    markTaken := false, localFrame := none, startDue := false }

/-! ### Service Channel Unit (spec/07) -/

/-- The receive state with the disposition and the assembly (spec/07 7.2): the assembly is present for CONSUME and
COPY_AND_FORWARD; the transit entry, for COPY_AND_FORWARD and FORWARD, is the newest packet of the transit queue (R119). -/
inductive Receiving
  | nothing
  | consume (assembly : List Octet)
  | copyForward (assembly : List Octet)
  | forward
  deriving DecidableEq, Repr

/-- The mark of a transit packet (R119). -/
inductive TransitMark
  | incomplete
  | complete
  | aborted
  deriving DecidableEq, Repr

/-- A packet of the transit queue (R119), with the number of the broadcast request delivered from it, if any (R127). -/
structure TransitPacket where
  held : List Octet
  forwarded : Nat
  mark : TransitMark
  request : Option Nat
  deriving DecidableEq, Repr

/-- Whose own packet is in emission (R127). -/
inductive PacketOwner
  | engine
  | eventUnit (cls : ClassId)
  deriving DecidableEq, Repr

/-- The packet in emission (spec/07 7.6). -/
inductive InEmission
  | nothing
  | transit
  | own (owner : PacketOwner) (packet : Packet) (sent : Nat)
  /-- A cold reset cut a packet off, and the next segment is the ABORT that ends it (R129). -/
  | abortDue
  deriving DecidableEq, Repr

/-- The state held by the Service Channel Unit (spec/07 7.2, 7.5, 7.6). -/
structure ServiceChannel where
  receiving : Receiving
  /-- The transit queue, oldest first. -/
  transit : List TransitPacket
  emission : InEmission
  waitCount : Nat
  /-- The model's own note (log entry 28): the arbiter's choice for the frame in emission found no own packet ready and gave no
  segment of one, and since then the payload of that frame is not complete and no received frame has been classified; the wait
  count before that choice (R124, R125). -/
  openChoice : Option Nat
  /-- The number the next delivered broadcast request gets, by which R127's second report names it. -/
  nextRequest : Nat
  deriving DecidableEq, Repr

/-- The Service Channel Unit after a hardware reset (R128). -/
def ServiceChannel.hardware : ServiceChannel :=
  { receiving := .nothing, transit := [], emission := .nothing, waitCount := 0, openChoice := none
    nextRequest := 0 }

/-! ### Management Engine (spec/08 8.2) -/

/-- The class of a request; a broadcast has its number and its forwarded flag (R133, R144). -/
inductive RequestClass
  | addressed
  | broadcast (number : Nat) (forwarded : Bool)
  deriving DecidableEq, Repr

/-- An entry of the request queue (spec/08 8.2). -/
structure Request where
  packet : Packet
  cls : RequestClass
  /-- C, the flywheel superframe of the arrival frame (R56). -/
  superframe : Superframe
  /-- Whether the arrival frame had valid ring time (R56). -/
  ringTime : Bool
  deriving DecidableEq, Repr

/-- An entry of the reply queue (spec/08 8.2, R141, R142). -/
structure Reply where
  packet : Packet
  begun : Bool
  isReset : Bool
  /-- It is the cached reply or a copy of it (R137, R142). -/
  ofCache : Bool
  deriving DecidableEq, Repr

/-- The scope of RESET_NODE (R186). -/
inductive ResetScope
  | cold
  | warm
  deriving DecidableEq, Repr

/-- When a pending reset takes effect (R187, R188, R144). -/
inductive ResetMoment
  | replyCompletes
  | endForwarded (request : Nat)
  | boundary
  deriving DecidableEq, Repr

/-- A pending reset: the scope noted and the moment awaited (R149, R186). -/
structure PendingReset where
  scope : ResetScope
  moment : ResetMoment
  deriving DecidableEq, Repr

/-- The state held by the Management Engine (spec/08 8.2). -/
structure Engine where
  address : Option (BitVec 6)
  requests : List Request
  replies : List Reply
  replyCache : Option Packet
  broadcastCache : Option Octet
  resetPending : Option PendingReset
  deriving DecidableEq, Repr

/-- The engine after a reset, with the node address it keeps or loses (R150). -/
def Engine.cleared (address : Option (BitVec 6)) : Engine :=
  { address := address, requests := [], replies := [], replyCache := none, broadcastCache := none, resetPending := none }

/-! ### Event Unit (spec/09 9.1) -/

/-- An event record (R152). -/
structure EventRecord where
  kind : EventKind
  source : Option WatchId
  superframe : Superframe
  occurrences : BitVec 8
  value : Option Sample
  deriving DecidableEq, Repr

/-- A kind's row of the kind table (R151). -/
structure KindSetting where
  enabled : Bool
  cls : ClassId
  deriving DecidableEq, Repr

/-- The service state of a class in service (spec/09 9.1): the notification as built (its sequence is the notification
sequence), carried count, lost snapshot, retry count, retry timer (present while it runs) and resend-due flag. -/
structure InService where
  packet : Packet
  carried : Nat
  snapshot : BitVec 8
  retries : Nat
  timer : Option Nat
  resendDue : Bool
  deriving DecidableEq, Repr

/-- How the priority order changes (R156). -/
inductive OrderMode
  | fixed
  | rotate
  deriving DecidableEq, Repr

/-- The notifier state (R166). -/
inductive Notifier
  | active
  | quiet
  deriving DecidableEq, Repr

/-- The state held by the Event Unit (spec/09 9.1). -/
structure EventUnit where
  kinds : Vector KindSetting 21
  /-- Free records of the pool (R153). -/
  free : Nat
  /-- The class queues, oldest record first. -/
  queues : Vector (List EventRecord) 8
  lost : Vector (BitVec 8) 8
  masked : Vector Bool 8
  autoAck : Vector Bool 8
  orderMode : OrderMode
  order : List ClassId
  service : Vector (Option InService) 8
  /-- The notification slot: the class and the packet waiting (R157). -/
  slot : Option (ClassId × Packet)
  notifier : Notifier
  /-- Classes at retry count 4 whose expiry waits for the notification in emission (R166). -/
  quietWait : List ClassId
  notifySequence : Octet
  retryTime : Octet
  deriving DecidableEq, Repr

/-- The kind table after a hardware or cold reset: all enabled, default classes (R151, R172). -/
def kindsHardware : Vector KindSetting 21 := Vector.ofFn fun i => ⟨true, defaultClasses[i]⟩

/-- The priority order 0..7 (R156). -/
def fixedOrder : List ClassId := [0, 1, 2, 3, 4, 5, 6, 7]

/-- The dynamic state that every reset gives the Event Unit, over a setup it keeps (R172, R173). -/
def EventUnit.cleared (ev : EventUnit) : EventUnit :=
  { ev with
    free := 64, queues := Vector.replicate 8 [], lost := Vector.replicate 8 0#8, order := fixedOrder
    service := Vector.replicate 8 none, slot := none, notifier := .quiet, quietWait := [], notifySequence := 0#8 }

/-- The Event Unit after a hardware or cold reset (R172). -/
def EventUnit.hardware : EventUnit :=
  { kinds := kindsHardware, free := 64, queues := Vector.replicate 8 [], lost := Vector.replicate 8 0#8
    masked := Vector.replicate 8 false, autoAck := Vector.replicate 8 false, orderMode := .fixed, order := fixedOrder
    service := Vector.replicate 8 none, slot := none, notifier := .quiet, quietWait := [], notifySequence := 0#8
    retryTime := 48#8 }

/-! ### Counter Bank (spec/10 10.1) -/

/-- The eleven counters (R174). -/
inductive CounterName
  | checkErrors
  | syncErrors
  | sequenceErrors
  | markedFrames
  | alignLosses
  | dropSlips
  | addSlips
  | serviceAborts
  | transitOverflows
  | badPackets
  | requestsDropped
  deriving DecidableEq, Repr

/-- A counter's place in the order of READ_COUNTERS (R174). -/
def CounterName.index : CounterName → Fin 11
  | .checkErrors => 0
  | .syncErrors => 1
  | .sequenceErrors => 2
  | .markedFrames => 3
  | .alignLosses => 4
  | .dropSlips => 5
  | .addSlips => 6
  | .serviceAborts => 7
  | .transitOverflows => 8
  | .badPackets => 9
  | .requestsDropped => 10

/-- The eleven 16-bit counters, in the order of READ_COUNTERS (R174). -/
abbrev Counters := Vector (BitVec 16) 11

/-- The counters after a hardware or cold reset (R183). -/
def countersHardware : Counters := Vector.replicate 11 0#16

end Sys2Proof.Machine
end

