-- ==== Sys2Proof/Machine/Flags.lean ====
section
/-! DEFINITION. The flags computed from a received frame: its class (R19), its ring time (R21), the error mark of its copy
(R6) and its soundness (R46). -/

namespace Sys2Proof.Machine

/-- The classes of a frame classified in ALIGNED (R19). -/
inductive FrameClass
  | good
  | sync
  | check
  | sequence
  deriving DecidableEq, Repr

/-- The class of a frame by its first failing test, `expected` being the flywheel's successor (R19). -/
def frameClass (f : Frame) (expected : FrameNumber) : FrameClass :=
  if !Frame.syncFound f then .sync
  else if !Frame.checkPasses f then .check
  else if f.number ≠ expected then .sequence
  else .good

/-- The counter of a failing class (R19). -/
def FrameClass.counter : FrameClass → Option CounterName
  | .good => none
  | .sync => some .syncErrors
  | .check => some .checkErrors
  | .sequence => some .sequenceErrors

/-- Valid ring time of a frame classified in ALIGNED (R21). It is also the soundness of its forwarded copy (R46). -/
def ringTimeValid (c : FrameClass) (uf : Bool) : Bool := c = .good && !uf

/-- EM of the forwarded copy of a received frame (R6). -/
def copyEm (f : Frame) : Bool := !Frame.checkPasses f || f.em

/-- The position that a received hop teaches (R3, R26): h + 1 for h in 0..61. -/
def positionOfHop (h : BitVec 6) : Option (BitVec 6) := if h.toNat ≤ 61 then some (h + 1#6) else none

/-- The hop a node emits: its position, or 63 (R3). -/
def hopOf (position : Option (BitVec 6)) : BitVec 6 := position.getD 63#6

end Sys2Proof.Machine
end

