-- ==== Sys2Proof/Config.lean ====
section
/-! DEFINITION. What the part fixes (identity codes), and the free values: choices the manual leaves open, each an opaque
constant applied to a counter of State (`State.choices`), so that nothing can be proved of its value. -/

namespace Sys2Proof

/-- Vendor code of IDENTIFY (R194). -/
def Config.vendorCode : BitVec 16 := 0x5044#16

/-- Part code of IDENTIFY (R194). -/
def Config.partCode : BitVec 16 := 0x0416#16

/-- Revision of IDENTIFY (R194). -/
def Config.revision : Octet := 0x01#8

/-- Free value (log entry 5): the order in which the Map Store, the Watch Unit and the Service Channel Unit take one
classified frame. R28 gives the hand-on and no order; R41, R61 and R104 allow either order of a request and a swap or an
evaluation. -/
opaque Config.handOnOrder : Nat → Fin 6

/-- Free value (log entry 6): whether POSITION_CHANGED (R26) is posted before UPSTREAM_FAULT or UPSTREAM_CLEAR (R27) when
one frame records both. -/
opaque Config.positionPostedFirst : Nat → Bool

/-- Free value (log entry 7): whether the Slot Switch takes a watch's status as it stood before the evaluation of the very
frame it grooms (R45, R101). -/
opaque Config.statusTakenBefore : Nat → WatchId → Bool

/-- Free value (log entry 8): whether R116 is tested before R120 when one segment would overflow both the assembly and the
transit queue. -/
opaque Config.assemblyTestedFirst : Nat → Bool

/-- Free value (log entry 26): whether the timers that an emitted frame mark brings to 0 expire before the arbiter makes its
choice for that frame (R124, R163). -/
opaque Config.expiryBeforeChoice : Nat → Bool

/-- Free value (log entry 28): whether an own packet that became ready after the arbiter's choice for the frame in emission, and
before both the next classification of a received frame and the end of that frame's payload, did so at the moment of that choice,
so that the frame counts in the wait count (R124, R125). -/
opaque Config.readyAtChoice : Nat → Bool

/-- Free value (log entry 9): what LDI carried in a local frame that FOLLOW completes without a LOCAL_FRAME_COMPLETE. -/
opaque Config.ldiUnreported : Nat → Channel → Sample

end Sys2Proof
end

