-- ==== Sys2Proof/Machine/State.lean ====
section
/-! DEFINITION. The state of the node, the reasons a step can stop, and the state after reset. -/

namespace Sys2Proof.Machine

/-- Why the block stops with a fault. There is no such reason: the manual gives every command an effect in every state
(an event that the node does not take in its present state changes nothing), and no rule halts the node. The type is
closed and empty, so no command can fault, which is safe. -/
inductive Fault
  deriving DecidableEq, Repr

/-- Why a command has no outcome. -/
inductive Refusal
  /-- Raised by `exec` alone, for a command that has no meaning yet; the mnemonic is that of spec/opcode_table.json. Safe:
  the model stops where the hardware goes on. No arm raises it. -/
  | notModelled (mnemonic : String)
  deriving DecidableEq, Repr

/-- The state of the node: the level of RESET_N, the state of each block (spec/00_scope.md 2), the model's own counter of
free choices, and the queue of commands that wait. -/
structure State where
  /-- RESET_N is high: the node is not held in hardware reset (R184). -/
  resetN : Bool
  ringOut : RingOut
  aligner : Aligner
  mapStore : MapStore
  /-- The Slot Switch's last-good sample of each local channel (R50). -/
  lastGood : LocalSamples
  port : LocalPort
  watches : Vector Watch 16
  service : ServiceChannel
  engine : Engine
  events : EventUnit
  counters : Counters
  /-- The model's own field: how many free choices have been drawn (Config's free values are applied to it). -/
  choices : Nat
  /-- The commands that wait, first in, first out. -/
  pending : List Instr
  deriving DecidableEq, Repr

/-- The node with every block at its hardware values (R184), by the carrier found at the release of RESET_N (R34). -/
def State.hardware (carrier : Bool) (choices : Nat) (waiting : List Instr) : State :=
  { resetN := true, ringOut := RingOut.hardware, aligner := Aligner.hardware carrier, mapStore := MapStore.hardware
    lastGood := lastGoodHardware, port := LocalPort.hardware, watches := watchesHardware
    service := ServiceChannel.hardware, engine := Engine.cleared none, events := EventUnit.hardware
    counters := countersHardware, choices := choices, pending := waiting }

/-- The machine right after reset: RESET_N has risen, ring-in carries no clock (log entry 2), the substitute frame (0, 0)
is due, and no command waits. -/
def State.reset : State := State.hardware false 0 []

end Sys2Proof.Machine
end

