-- ==== Sys2Proof/Machine/EventUnit.lean ====
section
/-! DEFINITION. The Event Unit (spec/09): records, class queues, notifications, acknowledgement, retry and QUIET, as
operations on the unit's own state. `sf` is the flywheel superframe of the moment (R152) and `addr` the node address. -/

namespace Sys2Proof.Machine

/-! ### Records (R152 to R155) -/

/-- A 8-bit count raised by 1 that stays at 255 (R154, R155). -/
def raise8 (n : BitVec 8) : BitVec 8 := if n = 0xFF#8 then n else n + 1#8

/-- The eight octets of a record (spec/12 12.6). -/
def EventRecord.octets (r : EventRecord) : List Octet :=
  [EventKind.number r.kind, match r.source with | some i => octetOf i.val | none => 0xFF#8] ++ octets16 r.superframe ++
    [r.occurrences] ++ octets24 (r.value.getD 0#24)

/-- Whether the newest record of a class queue is carried by the class's notification in service (R154). -/
def EventUnit.newestCarried (ev : EventUnit) (c : ClassId) : Bool :=
  match ev.service[c] with
  | some v => ev.queues[c].length ≤ v.carried
  | none => false

/-- The record a coalescing post is counted into, if there is one (R154, case 2). -/
def EventUnit.coalesceWith (ev : EventUnit) (c : ClassId) (k : EventKind) (src : Option WatchId) : Option EventRecord :=
  if EventKind.coalesces k && !EventUnit.newestCarried ev c then
    match ev.queues[c].getLast? with
    | some r => if r.kind = k ∧ r.source = src then some r else none
    | none => none
  else none

/-- A post handled by the four cases of R154, before the test of R157. -/
def EventUnit.record (ev : EventUnit) (sf : Superframe) (k : EventKind) (src : Option WatchId) (val : Option Sample) :
    EventUnit :=
  let c := ev.kinds[k.index].cls
  if !ev.kinds[k.index].enabled then ev
  else
    match EventUnit.coalesceWith ev c k src with
    | some r =>
      { ev with queues := ev.queues.set c (ev.queues[c].dropLast ++ [{ r with occurrences := raise8 r.occurrences }]) }
    | none =>
      if 0 < ev.free then
        { ev with
          free := ev.free - 1
          queues := ev.queues.set c (ev.queues[c] ++
            [{ kind := k, source := src, superframe := sf, occurrences := 1#8, value := val }]) }
      else { ev with lost := ev.lost.set c (raise8 ev.lost[c]) }

/-! ### Building notifications (R156 to R158) -/

/-- The first eligible class of the priority order, the node having an address (R157). -/
def EventUnit.firstEligible (ev : EventUnit) : Option ClassId :=
  (ev.order.takeWhile fun c => ev.service[c].isNone).find? fun c => !ev.masked[c] && !ev.queues[c].isEmpty

/-- The first class of the priority order whose resend is due (R164). -/
def EventUnit.firstResend (ev : EventUnit) : Option ClassId :=
  ev.order.find? fun c => match ev.service[c] with | some v => v.resendDue | none => false

/-- The notification of class `c` that is built for a node with address `a` (R158). -/
def EventUnit.notification (ev : EventUnit) (a : BitVec 6) (c : ClassId) : Packet :=
  { destination := 0#8, source := stationOfAddress a, kind := PacketKind.code .notify, sequence := ev.notifySequence
    operation := octetOf c.val
    params := [ev.lost[c], octetOf (ev.queues[c].take 4).length] ++ (ev.queues[c].take 4).flatMap EventRecord.octets }

/-- A new notification is built and placed in the slot, and its class goes into service (R158). -/
def EventUnit.build (ev : EventUnit) (a : BitVec 6) (c : ClassId) : EventUnit :=
  { ev with
    notifySequence := ev.notifySequence + 1#8
    service := ev.service.set c (some { packet := EventUnit.notification ev a c, carried := (ev.queues[c].take 4).length
                                        snapshot := ev.lost[c], retries := 0, timer := none, resendDue := false })
    slot := some (c, EventUnit.notification ev a c) }

/-- The slot is filled with the resend of class `c`, whose due flag clears (R164). -/
def EventUnit.fillResend (ev : EventUnit) (c : ClassId) : EventUnit :=
  match ev.service[c] with
  | some v =>
    { ev with slot := some (c, Packet.repeated v.packet), service := ev.service.set c (some { v with resendDue := false }) }
  | none => ev

/-- The test the Event Unit makes after every event it takes (R157). -/
def EventUnit.test (addr : Option (BitVec 6)) (ev : EventUnit) : EventUnit :=
  match ev.slot with
  | some _ => ev
  | none =>
    match EventUnit.firstResend ev with
    | some c => EventUnit.fillResend ev c
    | none =>
      match ev.notifier, addr with
      | .active, some a =>
        match EventUnit.firstEligible ev with
        | some c => EventUnit.build ev a c
        | none => ev
      | _, _ => ev

/-- A post: the record of R154, then the test of R157. -/
def EventUnit.post (sf : Superframe) (addr : Option (BitVec 6)) (k : EventKind) (src : Option WatchId)
    (val : Option Sample) (ev : EventUnit) : EventUnit :=
  EventUnit.test addr (EventUnit.record ev sf k src val)

/-! ### Acknowledgement (R161, R162) -/

/-- The effects of the acknowledgement of the notification of class `c`, in service as `v` (R162, R166). DESIGN CHOICE (log entry
36): where the expiries of several classes wait for one completion report, it cancels the change to QUIET of its own class only,
and the expiry of another class still brings QUIET. -/
def EventUnit.acknowledge (ev : EventUnit) (c : ClassId) (v : InService) : EventUnit :=
  { ev with
    free := ev.free + (ev.queues[c].take v.carried).length
    queues := ev.queues.set c (ev.queues[c].drop v.carried)
    lost := ev.lost.set c (ev.lost[c] - v.snapshot)
    service := ev.service.set c none
    slot := match ev.slot with | some (d, p) => if d = c then none else some (d, p) | none => none
    order := match ev.orderMode with | .fixed => ev.order | .rotate => ev.order.filter (· ≠ c) ++ [c]
    quietWait := ev.quietWait.filter (· ≠ c) }

/-- The notifier leaves QUIET if the node holds an address (R167). -/
def EventUnit.leaveQuiet (addr : Option (BitVec 6)) (ev : EventUnit) : EventUnit :=
  if ev.notifier = .quiet ∧ addr.isSome then { ev with notifier := .active } else ev

/-- The class an ACK's operation octet names and its service state, if the ACK matches (R162). -/
def EventUnit.ackMatch (ev : EventUnit) (operation sequence : Octet) : Option (ClassId × InService) :=
  if h : operation.toNat < 8 then
    match ev.service[(⟨operation.toNat, h⟩ : ClassId)] with
    | some v => if v.packet.sequence = sequence then some (⟨operation.toNat, h⟩, v) else none
    | none => none
  else none

/-- An ACK is taken (R162, R167), and the test of R157 follows it. -/
def EventUnit.takeAck (addr : Option (BitVec 6)) (operation sequence : Octet) (ev : EventUnit) : EventUnit :=
  let ev' := match EventUnit.ackMatch ev operation sequence with
    | some (c, v) => EventUnit.acknowledge ev c v
    | none => ev
  EventUnit.test addr (EventUnit.leaveQuiet addr ev')

/-- The engine tells that it has taken a request (R136, R167). -/
def EventUnit.requestTaken (addr : Option (BitVec 6)) (ev : EventUnit) : EventUnit :=
  EventUnit.test addr (EventUnit.leaveQuiet addr ev)

/-! ### Emission, completion, retry and QUIET (R160, R163 to R166) -/

/-- The arbiter takes the packet from the slot (R160), and the test of R157 follows. -/
def EventUnit.slotTaken (addr : Option (BitVec 6)) (ev : EventUnit) : EventUnit :=
  EventUnit.test addr { ev with slot := none }

/-- The change to QUIET (R166). Carried records stay at the front of their queues. -/
def EventUnit.goQuiet (sf : Superframe) (ev : EventUnit) : EventUnit :=
  EventUnit.record
    { ev with service := Vector.replicate 8 none, slot := none, notifier := .quiet, quietWait := [] }
    sf .notifierQuiet none none

/-- What the completion of a packet of class `c` does to that class (R160, R161, R163). -/
def EventUnit.completeClass (ev : EventUnit) (c : ClassId) (sequence : Octet) : EventUnit :=
  match ev.service[c] with
  | some v =>
    if v.packet.sequence = sequence then
      if ev.autoAck[c] then EventUnit.acknowledge ev c v
      else { ev with service := ev.service.set c (some { v with timer := some (16 * ev.retryTime.toNat) }) }
    else ev
  | none => ev

/-- A completion report (R160), acted on first; then a change to QUIET that waited for it (R166); then the test of R157. DESIGN
CHOICE (log entry 37): the test is made once, after the change, and not also between the report and the change. -/
def EventUnit.notificationComplete (sf : Superframe) (addr : Option (BitVec 6)) (c : ClassId) (sequence : Octet)
    (ev : EventUnit) : EventUnit :=
  let ev' := EventUnit.completeClass ev c sequence
  EventUnit.test addr (if ev'.quietWait.isEmpty then ev' else EventUnit.goQuiet sf ev')

/-- Whether the retry timer of class `c` has reached 0 and its expiry has not been taken (R163). -/
def EventUnit.expiryDue (ev : EventUnit) (c : ClassId) : Bool :=
  match ev.service[c] with
  | some v => v.timer == some 0
  | none => false

/-- The expiry of the retry timer of class `c` (R164, R166), then the test of R157. `emitting` says whether a notification
is in emission on ring-out. -/
def EventUnit.expire (sf : Superframe) (addr : Option (BitVec 6)) (emitting : Bool) (c : ClassId) (ev : EventUnit) :
    EventUnit :=
  if EventUnit.expiryDue ev c then
    match ev.service[c] with
    | some v =>
      EventUnit.test addr
        (if v.retries < 4 then
          { ev with service := ev.service.set c (some { v with retries := v.retries + 1, timer := none, resendDue := true }) }
        else if emitting then
          { ev with quietWait := ev.quietWait ++ [c], service := ev.service.set c (some { v with timer := none }) }
        else EventUnit.goQuiet sf ev)
    | none => ev
  else ev

/-- An emitted frame mark lowers every running timer by 1 (R163). -/
def EventUnit.lowerTimers (ev : EventUnit) : EventUnit :=
  { ev with service := Vector.ofFn fun c : ClassId =>
      match ev.service[c] with
      | some v => some { v with timer := v.timer.map (· - 1) }
      | none => none }

/-- Every expiry that is due is taken, in the priority order (log entry 11). -/
def EventUnit.expireDue (sf : Superframe) (addr : Option (BitVec 6)) (emitting : Bool) (ev : EventUnit) : EventUnit :=
  ev.order.foldl (fun e c => EventUnit.expire sf addr emitting c e) ev

/-- An emitted frame mark at the Event Unit (R33, R163): expiries of the mark before that are still due are taken first (log
entry 11), then the timers fall. The expiries of this mark follow at once where `early` says so, and otherwise stay due for
RETRY_TIMER_EXPIRY (log entry 26). -/
def EventUnit.mark (sf : Superframe) (addr : Option (BitVec 6)) (emitting early : Bool) (ev : EventUnit) : EventUnit :=
  let fallen := EventUnit.lowerTimers (EventUnit.expireDue sf addr emitting ev)
  if fallen.order.any (EventUnit.expiryDue fallen) && early then EventUnit.expireDue sf addr emitting fallen else fallen

/-! ### Class requests (R170, R171) -/

/-- How many records at the front of a class queue are carried (R159). -/
def EventUnit.carriedOf (ev : EventUnit) (c : ClassId) : Nat :=
  match ev.service[c] with
  | some v => v.carried
  | none => 0

/-- The records of class `c` that DISCARD_CLASS with number `n` removes (R171). -/
def EventUnit.discarded (ev : EventUnit) (c : ClassId) (n : Nat) : List EventRecord :=
  (ev.queues[c].drop (EventUnit.carriedOf ev c)).take n

/-- DISCARD_CLASS removes up to `n` of the oldest records that no notification carries (R171). -/
def EventUnit.discard (ev : EventUnit) (c : ClassId) (n : Nat) : EventUnit :=
  { ev with
    free := ev.free + (EventUnit.discarded ev c n).length
    queues := ev.queues.set c
      (ev.queues[c].take (EventUnit.carriedOf ev c) ++ (ev.queues[c].drop (EventUnit.carriedOf ev c)).drop n) }

/-- The records held in the eight class queues (R153). -/
def EventUnit.heldRecords (ev : EventUnit) : Nat := (ev.queues.toList.map List.length).sum

end Sys2Proof.Machine
end

