-- ==== Sys2Proof/Machine/Ops.lean ====
section
/-! DEFINITION. The operations every block shares: counting (R174), posting an event (R151), an event of the Event Unit,
and drawing a free choice. -/

namespace Sys2Proof.Machine

/-- A 16-bit counter raised by 1 that stays at FFFFh (R174). -/
def raise16 (n : BitVec 16) : BitVec 16 := if n = 0xFFFF#16 then n else n + 1#16

/-- A block increments one counter (R174). -/
def State.count (s : State) (c : CounterName) : State :=
  { s with counters := s.counters.set c.index (raise16 s.counters[c.index]) }

/-- A block posts an event to the Event Unit (R151, R154), at the flywheel superframe of the moment (R152). -/
def State.post (s : State) (k : EventKind) (src : Option WatchId) (val : Option Sample) : State :=
  { s with events := EventUnit.post s.aligner.flywheel.superframe s.engine.address k src val s.events }

/-- The model draws one free choice: the counter that Config's free values are applied to moves on. -/
def State.draw (s : State) : State := { s with choices := s.choices + 1 }

/-- Whether a notification is in emission on ring-out (R166): its segments are being placed, or the frame that carries its
END has not been emitted in full. -/
def State.notificationEmitting (s : State) : Bool :=
  (match s.service.emission with
    | .own (.eventUnit _) _ _ => true
    | _ => false) ||
  (match s.ringOut.current with
    | some e => match e.ends with
      | .notification _ _ => true
      | _ => false
    | none => false)

/-- Whether the emitted frame in progress is a substitute frame (R31). -/
def State.substituteInEmission (s : State) : Bool :=
  match s.ringOut.current with
  | some e => e.substitute
  | none => false

end Sys2Proof.Machine
end

