-- ==== Sys2Proof/Machine/LocalPort.lean ====
section
/-! DEFINITION. The Local Port (spec/05): the elastic stores, local frames, the watchdog and the local mode. -/

namespace Sys2Proof.Machine

/-! ### One store (R75 to R82) -/

/-- A write of a frame to a store, and whether it is a delete slip (R76, R78, R80, R82). -/
def Store.write (st : Store) (f : LocalSamples) : Store × Bool :=
  match st.state with
  | .stopped => (st, false)
  | .priming =>
    if 2 ≤ st.frames.length + 1 then ({ st with frames := st.frames ++ [f], state := .running }, false)
    else ({ st with frames := st.frames ++ [f] }, false)
  | .running =>
    if 4 ≤ st.frames.length then ({ st with frames := st.frames.tail ++ [f] }, true)
    else ({ st with frames := st.frames ++ [f] }, false)

/-- A frame of 32 idle words. -/
def idleSamples (idle : Sample) : LocalSamples := Vector.replicate 32 idle

/-- A read of a store: the store after it, the frame delivered and whether it is a repeat slip (R77, R79, R81). A store that
is not RUNNING delivers idle words. -/
def Store.read (st : Store) (idle : Sample) : Store × LocalSamples × Bool :=
  match st.state with
  | .stopped => (st, idleSamples idle, false)
  | .priming => (st, idleSamples idle, false)
  | .running =>
    match st.frames with
    | f :: rest => ({ st with frames := rest, last := some f }, f, false)
    | [] => (st, st.last.getD (idleSamples idle), true)

/-! ### Slips (R81, R82) -/

/-- A slip of the Drop Store is counted and recorded. -/
def State.dropSlip (s : State) (slip : Bool) : State :=
  if slip then State.post (State.count s .dropSlips) .dropSlip none none else s

/-- A slip of the Add Store is counted and recorded. -/
def State.addSlip (s : State) (slip : Bool) : State :=
  if slip then State.post (State.count s .addSlips) .addSlip none none else s

/-- A drop frame is written to the Drop Store (R76). -/
def State.writeDrop (s : State) (f : LocalSamples) : State :=
  let r := Store.write s.port.drop f
  State.dropSlip { s with port := { s.port with drop := r.1 } } r.2

/-- An add frame is written to the Add Store (R78). -/
def State.writeAdd (s : State) (f : LocalSamples) : State :=
  let r := Store.write s.port.add f
  State.addSlip { s with port := { s.port with add := r.1 } } r.2

/-- The Slot Switch reads one add frame (R79): the frame delivered, and the state after the read. -/
def State.readAdd (s : State) : LocalSamples × State :=
  let r := Store.read s.port.add s.ringOut.idleWord
  (r.2.1, State.addSlip { s with port := { s.port with add := r.1 } } r.2.2)

/-! ### Local frames (R71, R73, R74, R77, R78) -/

/-- A local frame is in progress: fewer than 768 edges (R71, R74). -/
def LocalPort.frameInProgress (p : LocalPort) : Bool :=
  match p.localFrame with
  | some lf => lf.edges < 768
  | none => false

/-- A local frame starts: the Drop Store is read for LDO, and the progress begins at 0 (R71, R77). A frame in progress ends
short, and its partial add frame is not written (R74). -/
def State.beginLocalFrame (s : State) : State :=
  let r := Store.read s.port.drop s.ringOut.idleWord
  let out := if s.port.drop.state = .stopped then none else some r.2.1
  State.dropSlip
    { s with port := { s.port with
        drop := r.1, localFrame := some { edges := 0, addSoFar := [], out := out }, startDue := false } }
    r.2.2

/-- Edge 768 of a complete local frame: its add frame is written to the Add Store (R78). -/
def State.completeLocalFrame (s : State) (add : LocalSamples) : State :=
  if s.port.frameInProgress then
    State.writeAdd
      { s with port := { s.port with
          localFrame := s.port.localFrame.map fun lf => { lf with edges := 768, addSoFar := add.toList } } }
      add
  else s

/-- In FOLLOW, a local frame start that falls with the start of the emitted frame in progress is taken (R73, R77). DESIGN CHOICE
(log entries 9 and 14): where no LOCAL_FRAME_START told it at its moment, it is taken here, at the completion of the payload, and
a PRIMING Drop Store delivers idle words of the value in force here. -/
def State.settleLocalStart (s : State) : State :=
  if s.port.startDue then State.beginLocalFrame s else s

/-- The start of an emitted frame at the Local Port. In FOLLOW edge 768 of the local frame before falls here, and the next
local frame start is due (R73). Where no LOCAL_FRAME_COMPLETE told what LDI carried, that is a free value. -/
def State.followFrameStart (s : State) : State :=
  if s.port.mode = .follow then
    let s1 := if s.port.frameInProgress then
        State.draw (State.completeLocalFrame s (Vector.ofFn fun c => Config.ldiUnreported s.choices c))
      else s
    { s1 with port := { s1.port with startDue := true } }
  else s

/-! ### The watchdog (R85, R86) -/

/-- The local timing is lost (R85). -/
def State.loseLocalTiming (s : State) : State :=
  State.post
    { s with port := { s.port with
        timingLost := true, watchdog := 4, drop := Store.emptied .stopped, add := Store.emptied .stopped
        localFrame := none } }
    .localTimingLost none none

/-- The local timing returns: both stores prime from empty (R86). -/
def State.restoreLocalTiming (s : State) : State :=
  State.post
    { s with port := { s.port with
        timingLost := false, watchdog := 0, drop := Store.emptied .priming, add := Store.emptied .priming } }
    .localTimingBack none none

/-- An emitted frame mark at the watchdog (R33, R85). -/
def State.watchdogMark (s : State) : State :=
  if s.port.markTaken then { s with port := { s.port with markTaken := false } }
  else if s.port.mode ≠ .external ∨ s.port.timingLost then s
  else if 3 ≤ s.port.watchdog then State.loseLocalTiming s
  else { s with port := { s.port with watchdog := s.port.watchdog + 1 } }

/-! ### The local mode (R87) -/

/-- The state both stores enter in a mode (R87). -/
def LocalMode.storeState : LocalMode → StoreState
  | .disabled => .stopped
  | .follow => .priming
  | .external => .priming

/-- WRITE_NODE_SETUP sets the local mode (R87). -/
def LocalPort.setMode (p : LocalPort) (mode : LocalMode) : LocalPort :=
  if p.mode = mode then p
  else
    { mode := mode, drop := Store.emptied (LocalMode.storeState mode), add := Store.emptied (LocalMode.storeState mode)
      timingLost := false, watchdog := 0, markTaken := false, localFrame := none, startDue := false }

end Sys2Proof.Machine
end

