-- ==== Sys2Proof/Machine/Operands.lean ====
section
/-! DEFINITION. The operand forms: how the parameter octets of requests spell map entries, watch setups, node settings and
event setups, and how replies spell them back (spec/12). -/

namespace Sys2Proof.Machine

/-- Two octets as a 16-bit value, the high octet first. -/
def word16 (hi lo : Octet) : BitVec 16 := hi ++ lo

/-- Three octets as a 24-bit value, the high octet first. -/
def word24 (hi mid lo : Octet) : Sample := hi ++ mid ++ lo

/-! ### Map entries (spec/12 12.4) -/

/-- The channel an entry's action uses (R37). -/
def Action.channel : Action → Option Channel
  | .tap c => some c
  | .terminate c => some c
  | .insert c => some c
  | .pass => none
  | .mute => none

/-- The channel for which an entry is a drop entry (R37). -/
def Action.dropChannel : Action → Option Channel
  | .tap c => some c
  | .terminate c => some c
  | _ => none

/-- The action of an entry from its code and its channel octet, or none where R39 refuses it. -/
def actionOf (code channel : Octet) : Option Action :=
  if h : channel.toNat < 32 then
    match code.toNat with
    | 1 => some (.tap ⟨channel.toNat, h⟩)
    | 2 => some (.terminate ⟨channel.toNat, h⟩)
    | 3 => some (.insert ⟨channel.toNat, h⟩)
    | _ => none
  else if channel = 0xFF#8 then
    match code.toNat with
    | 0 => some .pass
    | 4 => some .mute
    | _ => none
  else none

/-- The substitution that a code names (spec/12 12.4). -/
def substitutionOf (code : Octet) : Option Substitution :=
  match code.toNat with
  | 0 => some .hold
  | 1 => some .idle
  | 2 => some .zero
  | _ => none

/-- A map entry from its two octets, or none where R39 refuses it. -/
def entryOf (o0 o1 : Octet) : Option Entry :=
  match actionOf (o0 >>> 4) o1, substitutionOf (o0 &&& 0x0F#8) with
  | some a, some u => some ⟨a, u⟩
  | _, _ => none

/-- The entries of a list of octet pairs, or none if any of them is refused (R39). -/
def entriesOf : List Octet → Option (List Entry)
  | [] => some []
  | [_] => none
  | o0 :: o1 :: rest =>
    match entryOf o0 o1, entriesOf rest with
    | some e, some es => some (e :: es)
    | _, _ => none

/-- The action code (spec/12 12.4). -/
def Action.code : Action → Octet
  | .pass => 0x0#8
  | .tap _ => 0x1#8
  | .terminate _ => 0x2#8
  | .insert _ => 0x3#8
  | .mute => 0x4#8

/-- The substitution code (spec/12 12.4). -/
def Substitution.code : Substitution → Octet
  | .hold => 0x0#8
  | .idle => 0x1#8
  | .zero => 0x2#8

/-- The two octets of a map entry (spec/12 12.4). -/
def Entry.octets (e : Entry) : List Octet :=
  [(Action.code e.action <<< 4) ||| Substitution.code e.substitution,
   match Action.channel e.action with | some c => octetOf c.val | none => 0xFF#8]

/-- The shadow state code (spec/12 12.4). -/
def ShadowState.code : ShadowState → Octet
  | .editable => 0x00#8
  | .checked => 0x01#8
  | .pending _ => 0x02#8

/-- The bank code (spec/12 12.4). -/
def BankName.code : BankName → Octet
  | .a => 0x00#8
  | .b => 0x01#8

/-! ### Watch setups (spec/12 12.5) -/

/-- The watch mode that a code names. -/
def watchModeOf (code : Octet) : Option WatchMode :=
  match code.toNat with
  | 0 => some .activity
  | 1 => some .change
  | _ => none

/-- The sense that a code names. -/
def senseOf (code : Octet) : Option Sense :=
  match code.toNat with
  | 0 => some .matching
  | 1 => some .differing
  | _ => none

/-- The consequence that a code names. -/
def consequenceOf (code : Octet) : Option Consequence :=
  match code.toNat with
  | 0 => some .notify
  | 1 => some .substitute
  | _ => none

/-- A watch setup from its 12 octets, or none where R103 refuses it or there are not 12. -/
def watchSetupOf (os : List Octet) : Option WatchSetup :=
  match os with
  | [en, sl, ms, v0, v1, v2, m0, m1, m2, d0, d1, co] =>
    if h : sl.toNat < 48 then
      match watchModeOf (ms >>> 4), senseOf (ms &&& 0x0F#8), consequenceOf co with
      | some mode, some sense, some cons =>
        let limit := ((word16 d0 d1).extractLsb' 0 12).toNat
        let debounce := ((word16 d0 d1).extractLsb' 12 4).toNat
        if 1 ≤ limit ∧ 1 ≤ debounce then
          some { enabled := en.getLsbD 7, slot := ⟨sl.toNat, h⟩, mode := mode, sense := sense
                 value := word24 v0 v1 v2, mask := word24 m0 m1 m2, limit := limit, debounce := debounce
                 consequence := cons }
        else none
      | _, _, _ => none
    else none
  | _ => none

/-- The watch mode code. -/
def WatchMode.code : WatchMode → Octet
  | .activity => 0x0#8
  | .change => 0x1#8

/-- The sense code. -/
def Sense.code : Sense → Octet
  | .matching => 0x0#8
  | .differing => 0x1#8

/-- The consequence code. -/
def Consequence.code : Consequence → Octet
  | .notify => 0x00#8
  | .substitute => 0x01#8

/-- The watch status code. -/
def WatchStatus.code : WatchStatus → Octet
  | .active => 0x00#8
  | .silent => 0x01#8

/-- The 12 octets of a watch setup (spec/12 12.5). -/
def WatchSetup.octets (u : WatchSetup) : List Octet :=
  [if u.enabled then 0x80#8 else 0x00#8, octetOf u.slot.val, (WatchMode.code u.mode <<< 4) ||| Sense.code u.sense] ++
    octets24 u.value ++ octets24 u.mask ++ octets16 (BitVec.ofNat 4 u.debounce ++ BitVec.ofNat 12 u.limit) ++
    [Consequence.code u.consequence]

/-- What a READ_WATCH reply carries after the index: the setup and the dynamic state (spec/12 12.5). -/
def Watch.octets (w : Watch) : List Octet :=
  WatchSetup.octets w.setup ++ [WatchStatus.code w.status] ++ octets16 (BitVec.ofNat 16 w.silence) ++
    [octetOfBool w.stable.isSome ||| (octetOfBool w.candidate.isSome <<< 1)] ++ octets24 (w.stable.getD 0#24) ++
    octets24 (w.candidate.getD 0#24) ++ [octetOf w.candidateCount]

/-! ### Node settings (R146, spec/12 12.7) -/

/-- The settings that a WRITE_NODE_SETUP selects; a setting not selected is `none` (R146). -/
structure NodeSettings where
  idleWord : Option Sample
  threshold : Option Nat
  forcedRehunt : Option Bool
  localMode : Option LocalMode
  retryTime : Option Octet
  deriving DecidableEq, Repr

/-- The forced re-hunt setting that a code names. -/
def rehuntOf (code : Octet) : Option Bool :=
  match code.toNat with
  | 0 => some false
  | 1 => some true
  | _ => none

/-- The local mode that a code names. -/
def localModeOf (code : Octet) : Option LocalMode :=
  match code.toNat with
  | 0 => some .disabled
  | 1 => some .follow
  | 2 => some .external
  | _ => none

/-- The local mode code. -/
def LocalMode.code : LocalMode → Octet
  | .disabled => 0x00#8
  | .follow => 0x01#8
  | .external => 0x02#8

/-- Whether a field passes its test: not selected, or selected and in range (R146, R147). -/
def fieldPasses (selected inRange : Bool) : Bool := !selected || inRange

/-- The settings selected by nine parameter octets, or none where R147 refuses them or there are not nine. -/
def nodeSettingsOf (os : List Octet) : Option NodeSettings :=
  match os with
  | [sel, w0, w1, w2, t0, t1, re, mo, rt] =>
    if fieldPasses (sel.getLsbD 1) ((word16 t0 t1).toNat ≤ 1023) && fieldPasses (sel.getLsbD 2) (rehuntOf re).isSome &&
        fieldPasses (sel.getLsbD 3) (localModeOf mo).isSome && fieldPasses (sel.getLsbD 4) (1 ≤ rt.toNat) then
      some { idleWord := if sel.getLsbD 0 then some (word24 w0 w1 w2) else none
             threshold := if sel.getLsbD 1 then some (word16 t0 t1).toNat else none
             forcedRehunt := if sel.getLsbD 2 then rehuntOf re else none
             localMode := if sel.getLsbD 3 then localModeOf mo else none
             retryTime := if sel.getLsbD 4 then some rt else none }
    else none
  | _ => none

/-! ### Event setups (R168, spec/12 12.6) -/

/-- A kind octet: enable in bit 7, class in bits 2..0. -/
def kindSettingOf (o : Octet) : KindSetting := ⟨o.getLsbD 7, (o.extractLsb' 0 3).toFin⟩

/-- The kind octet of a setting, reserved bits 0. -/
def KindSetting.octet (k : KindSetting) : Octet := (if k.enabled then 0x80#8 else 0x00#8) ||| octetOf k.cls.val

/-- The eight flags of an octet, bit k for class k. -/
def flagsOf (o : Octet) : Vector Bool 8 := Vector.ofFn fun c => o.getLsbD c.val

/-- The octet of eight flags, bit k for class k. -/
def octetOfFlags (v : Vector Bool 8) : Octet :=
  (List.finRange 8).foldl (fun o c => o ||| (octetOfBool v[c] <<< c.val)) 0#8

/-- The order mode that a code names. -/
def orderModeOf (code : Octet) : Option OrderMode :=
  match code.toNat with
  | 0 => some .fixed
  | 1 => some .rotate
  | _ => none

/-- The order mode code. -/
def OrderMode.code : OrderMode → Octet
  | .fixed => 0x00#8
  | .rotate => 0x01#8

/-- The 24 octets of the event setup as it stands (R168, R169). -/
def EventUnit.setupOctets (ev : EventUnit) : List Octet :=
  (ev.kinds.toList.map KindSetting.octet) ++ [octetOfFlags ev.masked, OrderMode.code ev.orderMode, octetOfFlags ev.autoAck]

/-- WRITE_EVENT_SETUP of the 24 octets `os`, with the order mode they name (R169). -/
def EventUnit.withSetup (ev : EventUnit) (os : List Octet) (mode : OrderMode) : EventUnit :=
  { ev with
    kinds := Vector.ofFn fun i : Fin 21 => kindSettingOf (os.getD i.val 0#8)
    masked := flagsOf (os.getD 21 0#8)
    orderMode := mode
    autoAck := flagsOf (os.getD 23 0#8)
    order := match mode, ev.orderMode with
      | .fixed, _ => fixedOrder
      | .rotate, .fixed => fixedOrder
      | .rotate, .rotate => ev.order }

/-! ### Status codes (spec/12 12.7) -/

/-- The alignment state code. -/
def AlignState.code : AlignState → Octet
  | .noSignal => 0x00#8
  | .hunt => 0x01#8
  | .confirm => 0x02#8
  | .aligned => 0x03#8

/-- The store state code. -/
def StoreState.code : StoreState → Octet
  | .stopped => 0x00#8
  | .priming => 0x01#8
  | .running => 0x02#8

/-- The notifier state code. -/
def Notifier.code : Notifier → Octet
  | .quiet => 0x00#8
  | .active => 0x01#8

end Sys2Proof.Machine
end

