-- ==== Sys2Proof/Machine/MapStore.lean ====
section
/-! DEFINITION. The Map Store (spec/03, spec/04): the banks by role, the tests of the shadow bank, and the swap. -/

namespace Sys2Proof.Machine

/-- The bank with a letter (R36). -/
def MapStore.bank (m : MapStore) : BankName → Bank
  | .a => m.bankA
  | .b => m.bankB

/-- The other letter. -/
def BankName.other : BankName → BankName
  | .a => .b
  | .b => .a

/-- The active bank (R36). -/
def MapStore.activeBank (m : MapStore) : Bank := MapStore.bank m m.active

/-- The letter of the shadow bank (R36). -/
def MapStore.shadowName (m : MapStore) : BankName := BankName.other m.active

/-- The shadow bank (R36). -/
def MapStore.shadowBank (m : MapStore) : Bank := MapStore.bank m (MapStore.shadowName m)

/-- The shadow bank's contents replaced, and the shadow state with them. -/
def MapStore.setShadow (m : MapStore) (bank : Bank) (st : ShadowState) : MapStore :=
  match m.active with
  | .a => { m with bankB := bank, shadow := st }
  | .b => { m with bankA := bank, shadow := st }

/-! ### Drop entries and conflicts (R38, R43, R44) -/

/-- The slots whose entries name channel `c` with TAP or TERMINATE, in ascending order (R43). -/
def Bank.dropSlots (b : Bank) (c : Channel) : List Slot :=
  (List.finRange 48).filter fun s => Action.dropChannel b[s].action = some c

/-- Whether two or more drop entries name channel `c` (R43). -/
def Bank.inConflict (b : Bank) (c : Channel) : Bool := 2 ≤ (Bank.dropSlots b c).length

/-- The lowest-numbered channel in conflict (R44). -/
def Bank.firstConflict (b : Bank) : Option Channel := (List.finRange 32).find? fun c => Bank.inConflict b c

/-- No local channel is named by more than one drop entry (R38). -/
def Bank.conflictFree (b : Bank) : Bool := (List.finRange 32).all fun c => !Bank.inConflict b c

/-- Channel, lower slot and higher slot that a CONFLICT reply carries (R44). -/
def Bank.conflictOctets (b : Bank) (c : Channel) : List Octet :=
  octetOf c.val :: ((Bank.dropSlots b c).take 2).map fun s => octetOf s.val

/-! ### Writing the shadow bank (R40) -/

/-- A bank in which `entries` replace the entries from slot `first` on (R40). -/
def Bank.written (b : Bank) (first : Nat) (entries : List Entry) : Bank :=
  Vector.ofFn fun s : Slot => if s.val < first then b[s] else entries.getD (s.val - first) b[s]

/-- The octets of `count` entries from slot `first` on (R41). -/
def Bank.readOctets (b : Bank) (first count : Nat) : List Octet :=
  ((b.toList.drop first).take count).flatMap Entry.octets

/-! ### The swap (R62 to R66) -/

/-- The two banks exchange roles; the new shadow is CHECKED and the target is discarded (R63). -/
def MapStore.swap (m : MapStore) : MapStore := { m with active := BankName.other m.active, shadow := .checked }

/-- The 24-bit value of a record that carries a 16-bit number (spec/12 12.6). -/
def recordValue (x : BitVec 16) : Sample := 0#8 ++ x

/-- What the Map Store's test at a superframe start of superframe `sf` with valid ring time does: the store after it and
the event of a swap, if one takes place (R62, R64, R66). -/
def MapStore.fire (m : MapStore) (sf : Superframe) : MapStore × Option (EventKind × Sample) :=
  match m.shadow with
  | .pending t =>
    if isAhead t sf then (m, none)
    else if t = sf then (MapStore.swap m, some (.switchDone, recordValue t))
    else (MapStore.swap m, some (.switchLate, recordValue (sf - t)))
  | .editable => (m, none)
  | .checked => (m, none)

/-- The pending target, present exactly in PENDING (R55). -/
def ShadowState.target : ShadowState → Option Superframe
  | .pending t => some t
  | .editable => none
  | .checked => none

/-- A warm reset returns a PENDING shadow to CHECKED (R54). -/
def MapStore.warm (m : MapStore) : MapStore :=
  match m.shadow with
  | .pending _ => { m with shadow := .checked }
  | .editable => m
  | .checked => m

end Sys2Proof.Machine
end

