-- ==== Sys2Proof/Machine/WatchUnit.lean ====
section
/-! DEFINITION. The Watch Unit (spec/06): the evaluation of one watch on one frame, and of all watches in order. -/

namespace Sys2Proof.Machine

/-- The masked sample of a watch (R91). -/
def Watch.masked (w : Watch) (x : Sample) : Sample := x &&& w.setup.mask

/-- Whether a frame shows activity in ACTIVITY mode (R94). -/
def Watch.matchActivity (w : Watch) (x : Sample) : Bool :=
  match w.setup.sense with
  | .matching => Watch.masked w x = w.setup.value &&& w.setup.mask
  | .differing => Watch.masked w x ≠ w.setup.value &&& w.setup.mask

/-- A candidate value carried `n` times: accepted when `n` reaches the debounce, otherwise kept (R95). The second component
is the new stable value if it was accepted over an old one, which is the activity of R96. -/
def Watch.candidateSeen (w : Watch) (v : Sample) (n : Nat) : Watch × Option Sample :=
  if w.setup.debounce ≤ n then
    ({ w with stable := some v, candidate := none, candidateCount := 0 }, if w.stable.isSome then some v else none)
  else ({ w with candidate := some v, candidateCount := n }, none)

/-- The comparison of R95 on the masked sample `v`, by the first of its three steps that applies. -/
def Watch.compareChange (w : Watch) (v : Sample) : Watch × Option Sample :=
  if w.stable = some v then ({ w with candidate := none, candidateCount := 0 }, none)
  else if w.candidate = some v then Watch.candidateSeen w v (w.candidateCount + 1)
  else Watch.candidateSeen w v 1

/-- Activity: the counter is set to the limit, and a SILENT watch becomes ACTIVE (R96, R99). -/
def Watch.showsActivity (w : Watch) : Watch := { w with status := .active, silence := w.setup.limit }

/-- The step of the silence counter at a superframe start without activity (R97, R98). -/
def Watch.stepSilence (w : Watch) : Watch :=
  if w.silence = 0 then w
  else if w.silence = 1 then { w with silence := 0, status := .silent }
  else { w with silence := w.silence - 1 }

/-- The event of a resumption, if the watch was SILENT (R99). -/
def Watch.resumption (w : Watch) : List (EventKind × Option Sample) :=
  match w.status with
  | .silent => [(.watchResumed, none)]
  | .active => []

/-- The watch after a superframe start's step, or unchanged at another frame, and the event of falling silent (R97, R98). -/
def Watch.quietFrame (w : Watch) (start : Bool) : Watch × List (EventKind × Option Sample) :=
  if start then
    (Watch.stepSilence w, if w.status = .active ∧ (Watch.stepSilence w).status = .silent then [(.watchSilent, none)] else [])
  else (w, [])

/-- The evaluation of an enabled watch on the received sample `x` of its slot; `start` says whether the frame is a
superframe start (R93 to R99). The events come in the order of R93. -/
def Watch.evaluate (w : Watch) (x : Sample) (start : Bool) : Watch × List (EventKind × Option Sample) :=
  match w.setup.mode with
  | .activity =>
    if Watch.matchActivity w x then (Watch.showsActivity w, Watch.resumption w) else Watch.quietFrame w start
  | .change =>
    match Watch.compareChange w (Watch.masked w x) with
    | (w', some v) => (Watch.showsActivity w', (.watchChanged, some v) :: Watch.resumption w')
    | (w', none) => Watch.quietFrame w' start

/-- The Watch Unit posts the events of watch `i` (R100). -/
def State.postWatch (s : State) (i : WatchId) (es : List (EventKind × Option Sample)) : State :=
  es.foldl (fun s e => State.post s e.1 (some i) e.2) s

/-- The newest copy that is due notes the status that its frame's evaluation changed (R45). -/
def RingOut.noteStatus (r : RingOut) (i : WatchId) (st : WatchStatus) : RingOut :=
  match r.copies.getLast? with
  | some c => { r with copies := r.copies.dropLast ++ [{ c with statusBefore := c.statusBefore ++ [(i, st)] }] }
  | none => r

/-- The evaluation of watch `i` on a frame (R93); `copied` says whether the frame has a forwarded copy. -/
def State.evaluateWatch (copied : Bool) (payload : Payload) (start : Bool) (s : State) (i : WatchId) : State :=
  let w := s.watches[i]
  if w.setup.enabled then
    let r := Watch.evaluate w payload[w.setup.slot] start
    let s1 := { s with watches := s.watches.set i r.1 }
    let s2 := if copied && r.1.status ≠ w.status then { s1 with ringOut := RingOut.noteStatus s1.ringOut i w.status } else s1
    State.postWatch s2 i r.2
  else s

/-- The evaluation of every enabled watch, in ascending order (R93). -/
def State.evaluateWatches (copied : Bool) (payload : Payload) (start : Bool) (s : State) : State :=
  (List.finRange 16).foldl (State.evaluateWatch copied payload start) s

/-- A WRITE_WATCH replaces the setup of watch `i` and restarts it (R104). A frame groomed afterwards sees the new state, so
what earlier evaluations left of the old status is forgotten. -/
def State.writeWatch (s : State) (i : WatchId) (u : WatchSetup) : State :=
  { s with
    watches := s.watches.set i (Watch.restarted u)
    ringOut := { s.ringOut with copies := s.ringOut.copies.map fun c =>
      { c with statusBefore := c.statusBefore.filter fun p => p.1 ≠ i } } }

end Sys2Proof.Machine
end

