-- ==== Sys2Proof/Machine/SlotSwitch.lean ====
section
/-! DEFINITION. The Slot Switch (spec/03 3.4): how the active bank grooms one emitted frame. -/

namespace Sys2Proof.Machine

/-- What the Slot Switch takes for one emitted frame (R45, R46): the active bank, the idle word, the soundness of the frame,
the received samples (idle words for a substitute frame), the add frame, and the watches as taken. -/
structure Grooming where
  bank : Bank
  idle : Sample
  sound : Bool
  received : Payload
  add : LocalSamples
  watches : Vector Watch 16

/-- Whether an enabled watch of the slot has consequence SUBSTITUTE and status SILENT (R47, R101). -/
def slotSilenced (watches : Vector Watch 16) (slot : Slot) : Bool :=
  (List.finRange 16).any fun i =>
    watches[i].setup.enabled && watches[i].setup.slot = slot && watches[i].setup.consequence = .substitute &&
      watches[i].status = .silent

/-- Whether the tapped sample of a drop entry at the slot is faulted (R47). -/
def Grooming.faulted (g : Grooming) (slot : Slot) : Bool := !g.sound || slotSilenced g.watches slot

/-- The outgoing sample of a slot (R48). -/
def Grooming.outgoing (g : Grooming) (slot : Slot) : Sample :=
  match g.bank[slot].action with
  | .pass => g.received[slot]
  | .tap _ => g.received[slot]
  | .terminate _ => g.idle
  | .insert c => g.add[c]
  | .mute => g.idle

/-- The payload of the emitted frame: the outgoing samples slot for slot (R8, R48). -/
def Grooming.payload (g : Grooming) : Payload := Vector.ofFn fun s => Grooming.outgoing g s

/-- The slot whose drop entry names a channel: the lowest, and by R38 the only one. -/
def Bank.dropSlot (b : Bank) (c : Channel) : Option Slot :=
  (List.finRange 48).find? fun s => Action.dropChannel b[s].action = some c

/-- What a substitution delivers to a channel (R49). -/
def Substitution.sample (u : Substitution) (lastGood idle : Sample) : Sample :=
  match u with
  | .hold => lastGood
  | .idle => idle
  | .zero => 0#24

/-- The sample that the drop frame carries for a channel (R48, R49, R51). -/
def Grooming.delivered (g : Grooming) (lastGood : LocalSamples) (c : Channel) : Sample :=
  match Bank.dropSlot g.bank c with
  | some s =>
    if Grooming.faulted g s then Substitution.sample g.bank[s].substitution lastGood[c] g.idle else g.received[s]
  | none => g.idle

/-- The drop frame (R51). -/
def Grooming.dropFrame (g : Grooming) (lastGood : LocalSamples) : LocalSamples :=
  Vector.ofFn fun c => Grooming.delivered g lastGood c

/-- The last-good samples after the frame: a channel takes the sample of a non-faulted delivery (R50). -/
def Grooming.lastGood (g : Grooming) (lastGood : LocalSamples) : LocalSamples :=
  Vector.ofFn fun c =>
    match Bank.dropSlot g.bank c with
    | some s => if Grooming.faulted g s then lastGood[c] else g.received[s]
    | none => lastGood[c]

/-- The watches as the Slot Switch takes them for a forwarded copy: where the evaluation of its own frame changed a status,
the one before or the one after, by a free choice (R45, R101). -/
def watchesTaken (choice : Nat) (watches : Vector Watch 16) (before : List (WatchId × WatchStatus)) : Vector Watch 16 :=
  before.foldl
    (fun ws p => if Config.statusTakenBefore choice p.1 then ws.set p.1 { ws[p.1] with status := p.2 } else ws) watches

end Sys2Proof.Machine
end

