-- ==== Sys2Proof/Machine/Engine.lean ====
section
/-! DEFINITION. The Management Engine (spec/08): what each operation answers, taking a request, duplicate detection, reply
construction, and the arrival of a request. -/

namespace Sys2Proof.Machine

/-- What the execution of a request answers: the reply code, the further reply contents (R140), and the state after it. -/
structure Answer where
  code : ReplyCode
  contents : List Octet
  after : State

/-- A refusal with the code alone: nothing changes (R138, R140). -/
def Answer.refuse (s : State) (code : ReplyCode) : Answer := ⟨code, [], s⟩

/-- An Event Unit test after an execution that is an event at the Event Unit (R157, spec/09 9.9). -/
def State.testEvents (s : State) : State := { s with events := EventUnit.test s.engine.address s.events }

/-! ### Node requests (spec/11, spec/10, R146 to R148) -/

/-- IDENTIFY (R194). -/
def answerIdentify (params : List Octet) (s : State) : Answer :=
  if params.isEmpty then
    ⟨.ok, octets16 Config.vendorCode ++ octets16 Config.partCode ++ [Config.revision, 48#8, 32#8, 16#8, 64#8, 8#8,
      octetOrAbsent s.engine.address, octetOrAbsent s.aligner.position, AlignState.code s.aligner.align], s⟩
  else Answer.refuse s .badLength

/-- ASSIGN_ADDRESS (R191). -/
def answerAssignAddress (params : List Octet) (s : State) : Answer :=
  match params with
  | [a] =>
    if 1 ≤ a.toNat ∧ a.toNat ≤ 62 then
      ⟨.ok, [a, octetOrAbsent s.aligner.position], { s with engine := { s.engine with address := some (stationValue a) } }⟩
    else Answer.refuse s .badParameter
  | _ => Answer.refuse s .badLength

/-- The 34 octets of a READ_STATUS reply after the code (R181, spec/12 12.7). -/
def State.statusOctets (s : State) : List Octet :=
  [AlignState.code s.aligner.align, octetOf s.aligner.consecutiveBad] ++ octets16 (BitVec.ofNat 16 s.aligner.windowCount) ++
    octets16 s.aligner.flywheel.superframe ++
    [0#4 ++ s.aligner.flywheel.index, octetOrAbsent s.aligner.position, octetOrAbsent s.engine.address,
      octetOfBool s.aligner.lastUf, BankName.code s.mapStore.active, ShadowState.code s.mapStore.shadow] ++
    octets16 ((ShadowState.target s.mapStore.shadow).getD 0#16) ++
    [LocalMode.code s.port.mode, StoreState.code s.port.drop.state, octetOf s.port.drop.frames.length,
      StoreState.code s.port.add.state, octetOf s.port.add.frames.length, Notifier.code s.events.notifier,
      octetOfFlags (Vector.ofFn fun c : ClassId => s.events.service[c].isSome), octetOf s.events.free] ++
    s.events.lost.toList ++
    [octetOf s.engine.requests.length, octetOf s.engine.replies.length] ++
    octets16 (BitVec.ofNat 16 (s.service.transit.map fun p => p.held.length).sum)

/-- READ_STATUS (R181, R182). -/
def answerReadStatus (params : List Octet) (s : State) : Answer :=
  if params.isEmpty then ⟨.ok, State.statusOctets s, s⟩ else Answer.refuse s .badLength

/-- The selected settings applied, each by its owner (R148): the idle word (R12), the quality settings (R25), the local mode
(R87) and the retry time (R163). -/
def State.applySettings (s : State) (n : NodeSettings) : State :=
  { s with
    ringOut := { s.ringOut with idleWord := n.idleWord.getD s.ringOut.idleWord }
    aligner := { s.aligner with
      threshold := n.threshold.getD s.aligner.threshold
      forcedRehunt := n.forcedRehunt.getD s.aligner.forcedRehunt }
    port := match n.localMode with | some m => LocalPort.setMode s.port m | none => s.port
    events := { s.events with retryTime := n.retryTime.getD s.events.retryTime } }

/-- The eight octets of the five settings as they stand, in the order and sizes of R146 without the select octet (R148, spec/12
12.7). DESIGN CHOICE (log entry 32): R148 also counts nine octets of settings and ten of the reply, which those sizes do not
give. -/
def State.settingOctets (s : State) : List Octet :=
  octets24 s.ringOut.idleWord ++ octets16 (BitVec.ofNat 16 s.aligner.threshold) ++
    [octetOfBool s.aligner.forcedRehunt, LocalMode.code s.port.mode, s.events.retryTime]

/-- WRITE_NODE_SETUP (R146 to R148). -/
def answerWriteNodeSetup (params : List Octet) (s : State) : Answer :=
  if params.length = 9 then
    match nodeSettingsOf params with
    | some n => ⟨.ok, State.settingOctets (State.applySettings s n), State.applySettings s n⟩
    | none => Answer.refuse s .badParameter
  else Answer.refuse s .badLength

/-! ### Map requests (R39 to R44, R57, R58, R61) -/

/-- The entries of a WRITE_MAP applied to the shadow bank, which becomes EDITABLE (R40). -/
def State.writeShadow (s : State) (first : Nat) (entries : List Entry) : State :=
  { s with mapStore :=
      MapStore.setShadow s.mapStore (Bank.written (MapStore.shadowBank s.mapStore) first entries) .editable }

/-- WRITE_MAP (R39, R40). -/
def answerWriteMap (params : List Octet) (s : State) : Answer :=
  match params with
  | first :: count :: rest =>
    if rest.length = 2 * count.toNat then
      if 1 ≤ count.toNat ∧ count.toNat ≤ 24 ∧ first.toNat + count.toNat ≤ 48 then
        match entriesOf rest with
        | some es =>
          match s.mapStore.shadow with
          | .pending _ => Answer.refuse s .wrongState
          | .editable | .checked =>
            ⟨.ok, [], State.writeShadow s first.toNat es⟩
        | none => Answer.refuse s .badParameter
      else Answer.refuse s .badParameter
    else Answer.refuse s .badLength
  | _ => Answer.refuse s .badLength

/-- The bank letter that a role code names (R41). -/
def MapStore.roleOf (m : MapStore) (code : Octet) : Option BankName :=
  match code.toNat with
  | 0 => some m.active
  | 1 => some (MapStore.shadowName m)
  | _ => none

/-- READ_MAP (R41). -/
def answerReadMap (params : List Octet) (s : State) : Answer :=
  match params with
  | [role, first, count] =>
    match MapStore.roleOf s.mapStore role with
    | some letter =>
      if 1 ≤ count.toNat ∧ count.toNat ≤ 24 ∧ first.toNat + count.toNat ≤ 48 then
        ⟨.ok, [BankName.code letter, ShadowState.code s.mapStore.shadow, first, count] ++
          Bank.readOctets (MapStore.bank s.mapStore letter) first.toNat count.toNat, s⟩
      else Answer.refuse s .badParameter
    | none => Answer.refuse s .badParameter
  | _ => Answer.refuse s .badLength

/-- COPY_ACTIVE (R42). -/
def answerCopyActive (params : List Octet) (s : State) : Answer :=
  if params.isEmpty then
    match s.mapStore.shadow with
    | .pending _ => Answer.refuse s .wrongState
    | .editable | .checked =>
      ⟨.ok, [], { s with mapStore := MapStore.setShadow s.mapStore (MapStore.activeBank s.mapStore) .checked }⟩
  else Answer.refuse s .badLength

/-- CHECK_MAP (R43, R44). -/
def answerCheckMap (params : List Octet) (s : State) : Answer :=
  if params.isEmpty then
    match s.mapStore.shadow with
    | .pending _ => Answer.refuse s .wrongState
    | .editable | .checked =>
      match Bank.firstConflict (MapStore.shadowBank s.mapStore) with
      | none => ⟨.ok, [], { s with mapStore := { s.mapStore with shadow := .checked } }⟩
      | some c =>
        ⟨.conflict, Bank.conflictOctets (MapStore.shadowBank s.mapStore) c,
          { s with mapStore := { s.mapStore with shadow := .editable } }⟩
  else Answer.refuse s .badLength

/-- The target of a SCHEDULE_SWITCH by its form (R57). -/
def switchTarget (form hi lo : Octet) (c : Superframe) : Option Superframe :=
  match form.toNat with
  | 0 => some (word16 hi lo)
  | 1 => some (c + 1#16)
  | _ => none

/-- SCHEDULE_SWITCH (R57, R58), judged against the arrival facts of the request (R56). -/
def answerScheduleSwitch (r : Request) (s : State) : Answer :=
  match r.packet.params with
  | [form, hi, lo] =>
    match switchTarget form hi lo r.superframe with
    | some t =>
      match s.mapStore.shadow with
      | .checked =>
        if !r.ringTime then Answer.refuse s .noRingTime
        else if isAhead t r.superframe then
          ⟨.ok, octets16 r.superframe ++ octets16 t, { s with mapStore := { s.mapStore with shadow := .pending t } }⟩
        else ⟨.tooLate, octets16 r.superframe ++ octets16 t, s⟩
      | .editable => ⟨.wrongState, [ShadowState.code s.mapStore.shadow], s⟩
      | .pending t' => ⟨.wrongState, ShadowState.code s.mapStore.shadow :: octets16 t', s⟩
    | none => Answer.refuse s .badParameter
  | _ => Answer.refuse s .badLength

/-- CANCEL_SWITCH (R61). -/
def answerCancelSwitch (params : List Octet) (s : State) : Answer :=
  if params.isEmpty then
    match s.mapStore.shadow with
    | .pending t => ⟨.ok, octets16 t, { s with mapStore := { s.mapStore with shadow := .checked } }⟩
    | .editable | .checked => ⟨.wrongState, [ShadowState.code s.mapStore.shadow], s⟩
  else Answer.refuse s .badLength

/-! ### Watch requests (R103 to R105) -/

/-- WRITE_WATCH (R103, R104). -/
def answerWriteWatch (params : List Octet) (s : State) : Answer :=
  if params.length = 13 then
    match params with
    | i :: setup =>
      if h : i.toNat < 16 then
        match watchSetupOf setup with
        | some u => ⟨.ok, [], State.writeWatch s ⟨i.toNat, h⟩ u⟩
        | none => Answer.refuse s .badParameter
      else Answer.refuse s .badParameter
    | [] => Answer.refuse s .badLength
  else Answer.refuse s .badLength

/-- READ_WATCH (R105). -/
def answerReadWatch (params : List Octet) (s : State) : Answer :=
  match params with
  | [i] =>
    if h : i.toNat < 16 then ⟨.ok, i :: Watch.octets s.watches[(⟨i.toNat, h⟩ : WatchId)], s⟩
    else Answer.refuse s .badParameter
  | _ => Answer.refuse s .badLength

/-! ### Event requests (R168 to R171) -/

/-- WRITE_EVENT_SETUP (R168, R169). -/
def answerWriteEventSetup (params : List Octet) (s : State) : Answer :=
  if params.length = 24 then
    match orderModeOf (params.getD 22 0#8) with
    | some mode =>
      ⟨.ok, EventUnit.setupOctets (EventUnit.withSetup s.events params mode),
        State.testEvents { s with events := EventUnit.withSetup s.events params mode }⟩
    | none => Answer.refuse s .badParameter
  else Answer.refuse s .badLength

/-- What a READ_CLASS reply carries after the code (R170). -/
def EventUnit.classOctets (ev : EventUnit) (c : ClassId) : List Octet :=
  [octetOf c.val, octetOfBool ev.service[c].isSome, octetOf ev.queues[c].length, ev.lost[c],
    octetOf (ev.queues[c].take 4).length] ++ (ev.queues[c].take 4).flatMap EventRecord.octets

/-- READ_CLASS (R170). -/
def answerReadClass (params : List Octet) (s : State) : Answer :=
  match params with
  | [k] =>
    if h : k.toNat < 8 then ⟨.ok, EventUnit.classOctets s.events ⟨k.toNat, h⟩, State.testEvents s⟩
    else Answer.refuse s .badParameter
  | _ => Answer.refuse s .badLength

/-- DISCARD_CLASS (R171). -/
def answerDiscardClass (params : List Octet) (s : State) : Answer :=
  match params with
  | [k, n] =>
    if h : k.toNat < 8 then
      ⟨.ok, [octetOf (EventUnit.discarded s.events ⟨k.toNat, h⟩ n.toNat).length],
        State.testEvents { s with events := EventUnit.discard s.events ⟨k.toNat, h⟩ n.toNat }⟩
    else Answer.refuse s .badParameter
  | _ => Answer.refuse s .badLength

/-! ### Counters and reset (R178, R179, R186) -/

/-- READ_COUNTERS, with the clear flag in bit 0 of its octet (R178, R179). -/
def answerReadCounters (params : List Octet) (s : State) : Answer :=
  match params with
  | [clear] =>
    ⟨.ok, s.counters.toList.flatMap octets16, if clear.getLsbD 0 then { s with counters := countersHardware } else s⟩
  | _ => Answer.refuse s .badLength

/-- The scope that a code names (R186). -/
def resetScopeOf (code : Octet) : Option ResetScope :=
  match code.toNat with
  | 0 => some .cold
  | 1 => some .warm
  | _ => none

/-- The moment at which an accepted RESET_NODE of a request takes effect (R144, R187, R188). -/
def RequestClass.resetMoment : RequestClass → ResetMoment
  | .addressed => .replyCompletes
  | .broadcast n forwarded => if forwarded then .boundary else .endForwarded n

/-- RESET_NODE (R186). -/
def answerResetNode (r : Request) (s : State) : Answer :=
  match r.packet.params with
  | [code] =>
    match resetScopeOf code with
    | some scope =>
      ⟨.ok, [code], { s with engine := { s.engine with
        resetPending := some { scope := scope, moment := RequestClass.resetMoment r.cls } } }⟩
    | none => Answer.refuse s .badParameter
  | _ => Answer.refuse s .badLength

/-! ### Validation and execution (R138, R139) -/

/-- The validation and execution of a request that matched no cache (R138, R139). -/
def answer (r : Request) (s : State) : Answer :=
  match operationOf r.packet.operation with
  | none => Answer.refuse s .unknownOperation
  | some .identify => answerIdentify r.packet.params s
  | some .assignAddress => answerAssignAddress r.packet.params s
  | some .readStatus => answerReadStatus r.packet.params s
  | some .writeNodeSetup => answerWriteNodeSetup r.packet.params s
  | some .writeMap => answerWriteMap r.packet.params s
  | some .readMap => answerReadMap r.packet.params s
  | some .copyActive => answerCopyActive r.packet.params s
  | some .checkMap => answerCheckMap r.packet.params s
  | some .scheduleSwitch => answerScheduleSwitch r s
  | some .cancelSwitch => answerCancelSwitch r.packet.params s
  | some .writeWatch => answerWriteWatch r.packet.params s
  | some .readWatch => answerReadWatch r.packet.params s
  | some .writeEventSetup => answerWriteEventSetup r.packet.params s
  | some .readClass => answerReadClass r.packet.params s
  | some .discardClass => answerDiscardClass r.packet.params s
  | some .readCounters => answerReadCounters r.packet.params s
  | some .resetNode => answerResetNode r s

/-! ### Replies (R132, R137, R140, R142) -/

/-- The source octet of a packet the node builds (R132): its address, or else its position. A node with neither builds no
reply (R132); the octet 7Fh stands there for an unknown position (log entry 13). -/
def State.ownStation (s : State) : Octet :=
  match s.engine.address with
  | some a => stationOfAddress a
  | none => stationOfPosition (hopOf s.aligner.position)

/-- The reply to a request, built after its execution (R140). DESIGN CHOICE (log entry 33): the reserved bit of the request's
source octet does not return in the destination, since each reserved bit of a built packet is 0 (R196) though R140 says that
the octet is unchanged. -/
def replyTo (r : Request) (a : Answer) : Packet :=
  { destination := r.packet.source &&& 0x7F#8, source := State.ownStation a.after, kind := PacketKind.code .reply
    sequence := r.packet.sequence, operation := r.packet.operation, params := ReplyCode.octet a.code :: a.contents }

/-- Whether the answer is the OK of a RESET_NODE, whose reply is the reset reply (R149, R186). -/
def isResetReply (r : Request) (a : Answer) : Bool :=
  operationOf r.packet.operation = some .resetNode && a.code = .ok

/-- A reply built by execution is appended and replaces the reply cache (R140, R142). -/
def State.appendReply (s : State) (p : Packet) (isReset : Bool) : State :=
  { s with engine := { s.engine with
    replies := s.engine.replies.map (fun q => { q with ofCache := false }) ++
      [{ packet := p, begun := false, isReset := isReset, ofCache := true }]
    replyCache := some p } }

/-- A request that matches the reply cache: discarded while the cached reply or a copy of it is queued, otherwise a copy
with R 1 is appended (R137). -/
def State.answerFromCache (s : State) (p : Packet) : State :=
  if s.engine.replies.any (·.ofCache) then s
  else { s with engine := { s.engine with replies := s.engine.replies ++
    [{ packet := Packet.repeated p, begun := false, isReset := false, ofCache := true }] } }

/-- A refused broadcast SCHEDULE_SWITCH or CANCEL_SWITCH records SWITCH_REFUSED (R68, R143). -/
def State.recordRefusal (s : State) (r : Request) (code : ReplyCode) : State :=
  if code ≠ .ok ∧ (operationOf r.packet.operation = some .scheduleSwitch ∨
      operationOf r.packet.operation = some .cancelSwitch) then
    State.post s .switchRefused none (some (r.packet.operation ++ ReplyCode.octet code ++ 0#8))
  else s

/-- The reply to an executed or refused request is built and appended (R140, R142). -/
def State.replied (r : Request) (a : Answer) : State := State.appendReply a.after (replyTo r a) (isResetReply r a)

/-- An addressed request handled after it has left the queue (R137 to R140). -/
def State.handleAddressed (s : State) (r : Request) : State :=
  match s.engine.replyCache with
  | some p => if p.sequence = r.packet.sequence then State.answerFromCache s p else State.replied r (answer r s)
  | none => State.replied r (answer r s)

/-- A broadcast request handled after it has left the queue (R137, R143). -/
def State.handleBroadcast (s : State) (r : Request) : State :=
  if s.engine.broadcastCache = some r.packet.sequence then s
  else
    let a := answer r { s with engine := { s.engine with broadcastCache := some r.packet.sequence } }
    State.recordRefusal a.after r a.code

/-- A taken request handled to its end; the engine then tells the Event Unit of the taking (R136, R167). -/
def State.handle (s : State) (r : Request) : State :=
  let s1 := match r.cls with
    | .addressed => State.handleAddressed s r
    | .broadcast _ _ => State.handleBroadcast s r
  { s1 with events := EventUnit.requestTaken s1.engine.address s1.events }

/-! ### Taking and arrival (R133 to R136) -/

/-- The taking condition for the oldest request `r` (R136). -/
def Engine.mayTake (e : Engine) (r : Request) : Bool :=
  e.resetPending.isNone && (match r.cls with | .broadcast _ _ => true | .addressed => e.replies.length < 4)

/-- One taking, when the taking condition holds (R136). -/
def State.take (s : State) : State :=
  match s.engine.requests with
  | r :: rest =>
    if Engine.mayTake s.engine r then State.handle { s with engine := { s.engine with requests := rest } } r else s
  | [] => s

/-- Two requests of the same class (R134). -/
def RequestClass.same : RequestClass → RequestClass → Bool
  | .addressed, .addressed => true
  | .broadcast _ _, .broadcast _ _ => true
  | _, _ => false

/-- A queued request of the same class and sequence makes an arriving one a duplicate (R134). -/
def Engine.holdsDuplicate (e : Engine) (r : Request) : Bool :=
  e.requests.any fun q => RequestClass.same q.cls r.cls && q.packet.sequence = r.packet.sequence

/-- A broadcast outside the executed subset (R133). -/
def Request.discardedBroadcast (r : Request) : Bool :=
  match r.cls with
  | .addressed => false
  | .broadcast _ _ =>
    match operationOf r.packet.operation with
    | some op => !Operation.executedWhenBroadcast op
    | none => true

/-- A request arrives at the engine (R133 to R135). One that joins the queue is offered for taking in the same event. -/
def State.arrive (s : State) (r : Request) : State :=
  if Request.discardedBroadcast r then s
  else if Engine.holdsDuplicate s.engine r then s
  else if 4 ≤ s.engine.requests.length then State.post (State.count s .requestsDropped) .requestDropped none none
  else State.take { s with engine := { s.engine with requests := s.engine.requests ++ [r] } }

/-! ### A request given as a command -/

/-- The destination octet by which a request given as a command reached the node: none if the node would not consume it in
that form (R114, R193). -/
def State.consumedAs (s : State) : DestinationForm → Option Octet
  | .address => s.engine.address.map stationOfAddress
  | .position => s.aligner.position.map stationOfPosition
  | .broadcast => some (stationOfAddress 63#6)

/-- The class of a request given as a command; a broadcast takes the next number. -/
def State.classFor (s : State) : DestinationForm → RequestClass
  | .address => .addressed
  | .position => .addressed
  | .broadcast => .broadcast s.service.nextRequest false

/-- The next number is used up by a delivered broadcast (R127). -/
def State.numberUsed (s : State) : DestinationForm → State
  | .address => s
  | .position => s
  | .broadcast => { s with service := { s.service with nextRequest := s.service.nextRequest + 1 } }

/-- The delivery of a request of one operation to the engine (R118, R133). While RESET_N is low no request is taken (R184);
a request the node does not consume changes nothing (R114); more than 56 parameter octets are a packet of more than 64
octets, which R116 drops and counts. -/
def State.deliver (s : State) (d : Delivery) (op : Operation) (params : List Octet) : State :=
  if !s.resetN then s
  else
    match State.consumedAs s d.form with
    | none => s
    | some destination =>
      if 56 < params.length then State.count s .badPackets
      else
        State.arrive (State.numberUsed s d.form)
          { packet := { destination := destination, source := d.source, kind := PacketKind.code .request
                        sequence := d.sequence, operation := Operation.number op, params := params }
            cls := State.classFor s d.form, superframe := d.superframe, ringTime := d.ringTime }

end Sys2Proof.Machine
end

