-- ==== Sys2Proof/Machine/Receive.lean ====
section
/-! DEFINITION. The receive side of the Service Channel Unit (spec/07 7.2 to 7.5): segments into packets, the disposition,
the transit queue's filling, completion and delivery. -/

namespace Sys2Proof.Machine

/-! ### The transit queue's filling (R119 to R121) -/

/-- The total of the transit queue: the held octets of all its packets (R119). -/
def transitTotal (q : List TransitPacket) : Nat := (q.map fun p => p.held.length).sum

/-- Whether a segment's octets fit the transit queue (R120). -/
def ServiceChannel.fits (c : ServiceChannel) (n : Nat) : Bool := transitTotal c.transit + n ≤ 256

/-- The newest packet of the queue changed, or removed where the change gives none. -/
def changeNewest (q : List TransitPacket) (change : TransitPacket → Option TransitPacket) : List TransitPacket :=
  match q.getLast? with
  | some p => q.dropLast ++ (change p).toList
  | none => q

/-- Octets appended to a packet's held octets (R120). -/
def TransitPacket.grown (octets : List Octet) (p : TransitPacket) : Option TransitPacket :=
  some { p with held := p.held ++ octets }

/-- A packet marked complete (R119). -/
def TransitPacket.completed (p : TransitPacket) : Option TransitPacket := some { p with mark := .complete }

/-- A packet marked aborted, or removed at once if it has not begun forwarding (R121). -/
def TransitPacket.abandoned (p : TransitPacket) : Option TransitPacket :=
  if p.forwarded = 0 then none else some { p with mark := .aborted }

/-- A packet from which broadcast request `n` was delivered (R127). -/
def TransitPacket.reporting (n : Nat) (p : TransitPacket) : Option TransitPacket := some { p with request := some n }

/-- The receive side's state with a new receive state and transit queue. -/
def State.withReceive (s : State) (r : Receiving) (q : List TransitPacket) : State :=
  { s with service := { s.service with receiving := r, transit := q } }

/-- The packet in progress on receive is aborted (R112). What the cause counts, its own rule says. -/
def State.abortReceive (s : State) : State :=
  match s.service.receiving with
  | .nothing => s
  | .consume _ => State.withReceive s .nothing s.service.transit
  | .copyForward _ => State.withReceive s .nothing (changeNewest s.service.transit TransitPacket.abandoned)
  | .forward => State.withReceive s .nothing (changeNewest s.service.transit TransitPacket.abandoned)

/-- Whether a packet is in progress on receive (spec/07 7.2). -/
def ServiceChannel.inPacket (c : ServiceChannel) : Bool :=
  match c.receiving with
  | .nothing => false
  | .consume _ => true
  | .copyForward _ => true
  | .forward => true

/-- A packet in progress is aborted for a cause this node detects, and SERVICE_ABORTS is counted (R110, R111, R113). -/
def State.abortCounted (s : State) : State :=
  if ServiceChannel.inPacket s.service then State.count (State.abortReceive s) .serviceAborts else s

/-- A transit overflow (R120). -/
def State.transitOverflow (s : State) : State :=
  State.post (State.count (State.abortReceive s) .transitOverflows) .transitOverflow none none

/-! ### The disposition and the storing of octets (R114 to R116) -/

/-- The dispositions (spec/07 7.2). -/
inductive Disposition
  | consume
  | copyAndForward
  | forward
  deriving DecidableEq, Repr

/-- The disposition of a packet by its destination octet (R114). -/
def State.disposition (s : State) (destination : Octet) : Disposition :=
  if stationValue destination = 63#6 then .copyAndForward
  else if stationIsPosition destination then
    if s.aligner.position = some (stationValue destination) then .consume else .forward
  else if s.engine.address = some (stationValue destination) then .consume
  else .forward

/-- A new entry of the transit queue (R120). -/
def TransitPacket.opened (octets : List Octet) : TransitPacket :=
  { held := octets, forwarded := 0, mark := .incomplete, request := none }

/-- The first segment of a packet, in receive state NONE (R111, R114, R115, R120). -/
def State.takeFirst (s : State) (octets : List Octet) : State :=
  match State.disposition s (octets.getD 0 0#8) with
  | .consume => State.withReceive s (.consume octets) s.service.transit
  | .copyAndForward =>
    if ServiceChannel.fits s.service octets.length then
      State.withReceive s (.copyForward octets) (s.service.transit ++ [TransitPacket.opened octets])
    else State.transitOverflow s
  | .forward =>
    if ServiceChannel.fits s.service octets.length then
      State.withReceive s .forward (s.service.transit ++ [TransitPacket.opened octets])
    else State.transitOverflow s

/-- Octets into the transit entry of the packet in progress, under receive state `r`, or an overflow (R120). -/
def State.storeTransit (s : State) (r : Receiving) (octets : List Octet) : State :=
  if ServiceChannel.fits s.service octets.length then
    State.withReceive s r (changeNewest s.service.transit (TransitPacket.grown octets))
  else State.transitOverflow s

/-- A later segment of the packet in progress (R111, R115, R116, R120). Where one segment would overflow both the assembly of
a broadcast copy and the transit queue, the order of the two tests is a free choice. -/
def State.takeMore (s : State) (octets : List Octet) : State :=
  match s.service.receiving with
  | .nothing => s
  | .consume a =>
    if 64 < a.length + octets.length then State.count (State.withReceive s .nothing s.service.transit) .badPackets
    else State.withReceive s (.consume (a ++ octets)) s.service.transit
  | .forward => State.storeTransit s .forward octets
  | .copyForward a =>
    if 64 < a.length + octets.length then
      if ServiceChannel.fits s.service octets.length || Config.assemblyTestedFirst s.choices then
        State.storeTransit (State.draw (State.count s .badPackets)) .forward octets
      else State.transitOverflow (State.draw s)
    else State.storeTransit s (.copyForward (a ++ octets)) octets

/-! ### Completion and delivery (R117, R118) -/

/-- The delivery of a consumed packet whose frame had ring time `rt` (R117, R118). -/
def State.deliverConsumed (s : State) (assembly : List Octet) (rt : Bool) : State :=
  match Packet.ofOctets assembly with
  | none => State.count s .badPackets
  | some p =>
    match Packet.namedKind p with
    | some .request =>
      State.arrive s { packet := p, cls := .addressed, superframe := s.aligner.flywheel.superframe, ringTime := rt }
    | some .ack => { s with events := EventUnit.takeAck s.engine.address p.operation p.sequence s.events }
    | some .reply => s
    | some .notify => s
    | none => s

/-- The delivery of a broadcast copy, whose forwarded copy is the newest packet of the transit queue (R117, R118, R127). -/
def State.deliverCopy (s : State) (assembly : List Octet) (rt : Bool) : State :=
  match Packet.ofOctets assembly with
  | none => State.count s .badPackets
  | some p =>
    match Packet.namedKind p with
    | some .request =>
      State.arrive
        { s with service := { s.service with
            nextRequest := s.service.nextRequest + 1
            transit := changeNewest s.service.transit (TransitPacket.reporting s.service.nextRequest) } }
        { packet := p, cls := .broadcast s.service.nextRequest false, superframe := s.aligner.flywheel.superframe
          ringTime := rt }
    | some .ack => s
    | some .reply => s
    | some .notify => s
    | none => s

/-- The packet in progress completes with the octets stored (R111, R117 to R119). -/
def State.completePacket (s : State) (rt : Bool) : State :=
  match s.service.receiving with
  | .nothing => s
  | .consume a => State.deliverConsumed (State.withReceive s .nothing s.service.transit) a rt
  | .forward => State.withReceive s .nothing (changeNewest s.service.transit TransitPacket.completed)
  | .copyForward a =>
    State.deliverCopy (State.withReceive s .nothing (changeNewest s.service.transit TransitPacket.completed)) a rt

/-- The segment of a good frame acts on the receive state (R111). `rt` says whether the frame has valid ring time (R56). -/
def State.receiveSegment (s : State) (g : Segment) (rt : Bool) : State :=
  match Segment.read g with
  | none => State.abortCounted s
  | some (.idle, _) => s
  | some (.start, octets) => State.takeFirst (State.abortCounted s) octets
  | some (.middle, octets) => State.takeMore s octets
  | some (.ending, octets) => State.completePacket (State.takeMore s octets) rt
  | some (.single, octets) => State.completePacket (State.takeFirst (State.abortCounted s) octets) rt
  | some (.abort, _) => State.abortReceive s

end Sys2Proof.Machine
end

