-- ==== Sys2Proof/Machine/Resets.lean ====
section
/-! DEFINITION. The resets (spec/11): a cold and a warm RESET_NODE taking effect (R189, R190), and what the fall and the
release of RESET_N do (R184). -/

namespace Sys2Proof.Machine

/-- A cold reset takes effect: every block takes its hardware values except the node address (R189). A packet in emission is
ended by an ABORT in the next emitted frame (R129). -/
def State.coldReset (s : State) : State :=
  { State.hardware s.aligner.carrier s.choices s.pending with
    resetN := s.resetN
    engine := Engine.cleared s.engine.address
    service := { ServiceChannel.hardware with
      emission := if s.service.emission = .nothing then .nothing else .abortDue } }

/-- A warm reset takes effect: the management plane and the Event Unit's dynamic state are cleared, the traffic path is kept
(R190). -/
def State.warmReset (s : State) : State :=
  { s with
    mapStore := MapStore.warm s.mapStore
    engine := Engine.cleared s.engine.address
    events := EventUnit.cleared s.events
    service := { s.service with waitCount := 0, openChoice := none } }

/-- A reset of one scope takes effect. -/
def State.resetBy (s : State) : ResetScope → State
  | .cold => State.coldReset s
  | .warm => State.warmReset s

/-- RESET_N falls: the emitted frame is cut off, no forwarded copy follows, the local frame is abandoned (R11, R184). The
blocks take their hardware values at the release. -/
def State.heldInReset (s : State) : State :=
  { s with
    resetN := false
    ringOut := { s.ringOut with current := none, copies := [], copyArriving := false }
    port := { s.port with localFrame := none, startDue := false } }

/-- RESET_N rises: every block takes its hardware values, with the carrier as it stands (R34, R184). -/
def State.released (s : State) (carrier : Bool) : State := State.hardware carrier s.choices s.pending

end Sys2Proof.Machine
end

