-- ==== Sys2Proof/Machine/RingOut.lean ====
section
/-! DEFINITION. Ring-out: the arbiter (spec/07 7.6), the end of an emitted frame with the reports of R127, and the start of
an emitted frame with its mark (R33), its segment, its payload and its header (R9, R10). -/

namespace Sys2Proof.Machine

/-! ### The arbiter (R123 to R126) -/

/-- Whether a segment began or continued an own packet (R125). -/
inductive OwnPart
  | neither
  | began
  | continued
  deriving DecidableEq, Repr

/-- What the arbiter gives for one emitted frame. -/
structure Given where
  segment : Segment
  ends : SegmentEnd
  part : OwnPart
  after : State

/-- The state with a new packet in emission and transit queue. -/
def State.withEmission (s : State) (e : InEmission) (q : List TransitPacket) : State :=
  { s with service := { s.service with emission := e, transit := q } }

/-- The kind of a segment of a transit packet that carries octets (R123). -/
def transitKind (first last : Bool) : SegmentKind :=
  match first, last with
  | true, true => .single
  | true, false => .start
  | false, false => .middle
  | false, true => .ending

/-- Whether a transit packet's next segment carries its last octet (R123). -/
def TransitPacket.endsNext (p : TransitPacket) : Bool := p.mark = .complete && (p.held.drop 3).isEmpty

/-- The next segment of the transit packet at the head of the queue (R121 to R123). -/
def State.giveTransit (s : State) : Given :=
  match s.service.transit with
  | [] => ⟨idleSegment, .nothing, .neither, s⟩
  | p :: rest =>
    if p.held.isEmpty then
      if p.mark = .aborted then ⟨Segment.build .abort [], .nothing, .neither, State.withEmission s .nothing rest⟩
      else ⟨idleSegment, .nothing, .neither, State.withEmission s .transit (p :: rest)⟩
    else if TransitPacket.endsNext p then
      ⟨Segment.build (transitKind (p.forwarded = 0) true) (p.held.take 3),
        match p.request with | some n => .forwarded n | none => .nothing, .neither, State.withEmission s .nothing rest⟩
    else
      ⟨Segment.build (transitKind (p.forwarded = 0) false) (p.held.take 3), .nothing, .neither,
        State.withEmission s .transit
          ({ p with held := p.held.drop 3, forwarded := p.forwarded + (p.held.take 3).length } :: rest)⟩

/-- The end that an own packet's END reports (R127). -/
def PacketOwner.ends (o : PacketOwner) (p : Packet) : SegmentEnd :=
  match o with
  | .engine => .reply
  | .eventUnit c => .notification c p.sequence

/-- The next segment of an own packet of which `sent` octets have been placed (R126). -/
def State.giveOwn (s : State) (o : PacketOwner) (p : Packet) (sent : Nat) (part : OwnPart) : Given :=
  let chunk := ((Packet.octets p).drop sent).take 3
  if (Packet.octets p).length ≤ sent + 3 then
    ⟨Segment.build .ending chunk, PacketOwner.ends o p, part, State.withEmission s .nothing s.service.transit⟩
  else
    ⟨Segment.build (if sent = 0 then .start else .middle) chunk, .nothing, part,
      State.withEmission s (.own o p (sent + 3)) s.service.transit⟩

/-- The oldest reply that has not begun emission (R141). -/
def Engine.readyReply (e : Engine) : Option Reply := e.replies.find? fun r => !r.begun

/-- The oldest reply that has not begun is marked as begun (R141). -/
def beginOldest : List Reply → List Reply
  | [] => []
  | r :: rest => if r.begun then r :: beginOldest rest else { r with begun := true } :: rest

/-- Whether an own packet is ready (R124). -/
def State.ownReady (s : State) : Bool := (Engine.readyReply s.engine).isSome || s.events.slot.isSome

/-- An own packet begins emission: the oldest ready reply, or else the notification in the slot (R124, R160). -/
def State.beginOwn (s : State) : Given :=
  match Engine.readyReply s.engine with
  | some r =>
    State.giveOwn { s with engine := { s.engine with replies := beginOldest s.engine.replies } } .engine r.packet 0 .began
  | none =>
    match s.events.slot with
    | some (c, p) =>
      State.giveOwn { s with events := EventUnit.slotTaken s.engine.address s.events } (.eventUnit c) p 0 .began
    | none => ⟨idleSegment, .nothing, .neither, s⟩

/-- The arbiter's choice by the five cases of R124. -/
def State.choose (s : State) : Given :=
  match s.service.emission with
  | .abortDue => ⟨Segment.build .abort [], .nothing, .neither, State.withEmission s .nothing s.service.transit⟩
  | .transit => State.giveTransit s
  | .own o p sent => State.giveOwn s o p sent .continued
  | .nothing =>
    if State.ownReady s && 64 < s.service.waitCount then State.beginOwn s
    else if !s.service.transit.isEmpty then State.giveTransit s
    else if State.ownReady s then State.beginOwn s
    else ⟨idleSegment, .nothing, .neither, s⟩

/-- The wait count after a segment (R125). -/
def waitAfter (part : OwnPart) (ready : Bool) (n : Nat) : Nat :=
  match part with
  | .began => 0
  | .continued => if ready then n else 0
  | .neither => if ready then min 65 (n + 1) else 0

/-- The arbiter supplies the segment of an emitted frame and the wait count changes (R124, R125). -/
def State.arbitrate (s : State) : Given :=
  let g := State.choose s
  { g with after := { g.after with service := { g.after.service with
      waitCount := waitAfter g.part (State.ownReady g.after) g.after.service.waitCount } } }

/-- The arbiter's last choice is settled: an own packet that is ready by now became ready at the moment of that choice, and the
frame counts in the wait count, or after it; which of the two is a free choice (R124, log entry 28). What becomes ready once the
choice is settled counts that frame no more (R125). It is settled at the next classification of a received frame, and at the
latest as the payload of its frame is complete. -/
def State.settleChoice (s : State) : State :=
  match s.service.openChoice with
  | some n =>
    { s with service := { s.service with
        openChoice := none
        waitCount :=
          if State.ownReady s && Config.readyAtChoice s.choices then min 65 (n + 1) else s.service.waitCount } }
  | none => s

/-- The choice stays open where it found no own packet ready and gave no segment of one; `n` is the wait count before it
(R124, R125). -/
def Given.noted (g : Given) (n : Nat) : State :=
  { g.after with service := { g.after.service with
      openChoice := if g.part = .neither && !State.ownReady g.after then some n else none } }

/-! ### The end of an emitted frame (R51, R127, R141, R144, R160) -/

/-- The payload of the frame in progress is complete: its drop frame is written to the Drop Store, once (R51, R76). In FOLLOW
the local frame that began with the frame has begun by then (R73), and the moment of the arbiter's choice for the frame has
passed, so that the choice is settled before the write (R124, R125, log entry 28). -/
def State.finishPayload (s : State) : State :=
  match s.ringOut.current with
  | some e =>
    if e.payloadDone then s
    else
      let s1 := State.settleChoice (State.settleLocalStart s)
      State.writeDrop
        { s1 with ringOut := { s1.ringOut with current := some { e with payloadDone := true } } } e.drop
  | none => s

/-- A completed reply leaves the reply queue (R141). The reset reply lets the pending reset take effect (R187); any other
frees an entry, and the engine tests its taking condition (R136). -/
def State.replyComplete (s : State) : State :=
  let s1 := { s with engine := { s.engine with replies := s.engine.replies.eraseP (·.begun) } }
  match s.engine.replies.find? (·.begun), s.engine.resetPending with
  | some r, some p => if r.isReset then State.resetBy s1 p.scope else State.take s1
  | _, _ => State.take s1

/-- The Event Unit receives a completion report (R160). -/
def State.notificationComplete (s : State) (c : ClassId) (sequence : Octet) : State :=
  { s with events := EventUnit.notificationComplete s.aligner.flywheel.superframe s.engine.address c sequence s.events }

/-- A queued broadcast request of number `n` has its forwarded flag set (R144). -/
def Request.markForwarded (n : Nat) (r : Request) : Request :=
  match r.cls with
  | .broadcast m f => { r with cls := .broadcast m (f || m = n) }
  | .addressed => r

/-- The report that the END of broadcast request `n`'s forwarded copy has been emitted in full (R144). -/
def State.forwardedReport (s : State) (n : Nat) : State :=
  match s.engine.resetPending with
  | some p =>
    if p.moment = .endForwarded n then State.resetBy s p.scope
    else { s with engine := { s.engine with requests := s.engine.requests.map (Request.markForwarded n) } }
  | none => { s with engine := { s.engine with requests := s.engine.requests.map (Request.markForwarded n) } }

/-- A broadcast reset that waits for a boundary takes effect at one where no packet is in emission (R144). DESIGN CHOICE (log
entry 16): after an IDLE that stands inside a transit packet (R123, last row), where R144 names the end of the frame and asks
that no packet be in emission, the reset waits for the end of the packet. -/
def State.boundaryReset (s : State) : State :=
  match s.engine.resetPending with
  | some p => if p.moment = .boundary ∧ s.service.emission = .nothing then State.resetBy s p.scope else s
  | none => s

/-- What the frame that has ended reports (R127). -/
def State.report (s : State) : SegmentEnd → State
  | .nothing => s
  | .reply => State.replyComplete s
  | .notification c q => State.notificationComplete s c q
  | .forwarded n => State.forwardedReport s n

/-- The emitted frame in progress, if any, ends: its payload is complete, what it ends is reported, and a reset that waits
for the boundary takes effect (R51, R127, R144). -/
def State.endFrame (s : State) : State :=
  match s.ringOut.current with
  | some e =>
    let s1 := State.finishPayload s
    State.boundaryReset (State.report { s1 with ringOut := { s1.ringOut with current := none } } e.ends)
  | none => State.boundaryReset s

/-! ### The start of an emitted frame (R9, R10, R33, R45) -/

/-- An emitted frame mark: the retry timers and the local timing watchdog (R33). Whether the expiries of this mark come before
the rest of the frame start, the arbiter's choice and an ADD_SLIP among it, is a free choice (R124, log entry 26). -/
def State.mark (s : State) : State :=
  let early := Config.expiryBeforeChoice s.choices
  State.watchdogMark
    { s with events :=
        EventUnit.mark s.aligner.flywheel.superframe s.engine.address (State.notificationEmitting s) early s.events }

/-- What an emitted frame is made from (R9, R10): its header, the received samples, its soundness and the statuses that its
own evaluation changed. -/
structure FrameSource where
  number : FrameNumber
  hop : BitVec 6
  uf : Bool
  em : Bool
  received : Payload
  sound : Bool
  statusBefore : List (WatchId × WatchStatus)
  substitute : Bool

/-- A frame with a correct check (R6). -/
def Frame.sealed (f : Frame) : Frame := { f with check := Frame.properCheck f }

/-- The frame that the Frame Builder places (R9, R10): fields from its source, the arbiter's segment, the payload. -/
def FrameSource.frame (f : FrameSource) (g : Segment) (payload : Payload) : Frame :=
  Frame.sealed { sync := syncWord, number := f.number, hop := f.hop, uf := f.uf, em := f.em, service := g
                 payload := payload, check := 0#16 }

/-- What the Slot Switch takes at payload begin (R45), the add frame having been read. -/
def State.grooming (s : State) (f : FrameSource) (add : LocalSamples) : Grooming :=
  { bank := MapStore.activeBank s.mapStore, idle := s.ringOut.idleWord, sound := f.sound, received := f.received
    add := add, watches := watchesTaken s.choices s.watches f.statusBefore }

/-- The Slot Switch grooms the frame, and the frame is in emission (R45 to R51). DESIGN CHOICE (log entry 35): the whole frame
is groomed as it starts, so that a WRITE_WATCH executed while it is in assembly, which R45 lets this frame or the next see, is
seen by the next. -/
def State.place (s : State) (f : FrameSource) (add : LocalSamples) (segment : Segment) (ends : SegmentEnd) : State :=
  let g := State.grooming s f add
  let e : Emission :=
    { frame := FrameSource.frame f segment (Grooming.payload g), substitute := f.substitute, ends := ends
      drop := Grooming.dropFrame g s.lastGood, payloadDone := false }
  { s with lastGood := Grooming.lastGood g s.lastGood, ringOut := { s.ringOut with current := some e } }

/-- An emitted frame begins: the mark (R33), the arbiter's segment (R124), the local frame of FOLLOW (R73), the read of the
add frame (R79) and the grooming (R45). DESIGN CHOICE (log entries 11 and 26): no rule orders a timer expiry of the mark (R163)
and the ADD_SLIP of the read; by the free choice of `State.mark` either comes first. -/
def State.emit (s : State) (f : FrameSource) : State :=
  let g := State.arbitrate (State.mark s)
  let r := State.readAdd (State.followFrameStart (Given.noted g s.service.waitCount))
  State.draw (State.place r.2 f r.1 g.segment g.ends)

/-- Whether a substitute frame may begin: the aligner is not ALIGNED and no forwarded copy is due (R10, R32). -/
def State.substituteMayStart (s : State) : Bool :=
  s.resetN && s.aligner.align ≠ .aligned && s.ringOut.copies.isEmpty

/-- The flywheel at the start of a substitute frame (R22): it advances in HUNT and NO_SIGNAL, but for the first frame after a
hardware or cold reset. DESIGN CHOICE (log entry 30): in CONFIRM the frame carries the pair that the flywheel holds (R10, R22),
also where it is the first one after the last forwarded frame, which R32 gives the successor of that frame's pair. -/
def State.substituteNumber (s : State) : FrameNumber :=
  if (s.aligner.align = .hunt ∨ s.aligner.align = .noSignal) ∧ s.ringOut.resetPairDue = false then
    successor s.aligner.flywheel
  else s.aligner.flywheel

/-- The state in which a substitute frame begins, its flywheel stepped (R22). -/
def State.steppedForSubstitute (s : State) : State :=
  { s with
    aligner := { s.aligner with flywheel := State.substituteNumber s }
    ringOut := { s.ringOut with resetPairDue := false } }

/-- What a substitute frame is made from (R10). -/
def State.substituteSource (s : State) : FrameSource :=
  { number := s.aligner.flywheel, hop := hopOf s.aligner.position, uf := true, em := false
    received := Vector.replicate 48 s.ringOut.idleWord, sound := false, statusBefore := [], substitute := true }

/-- What the forwarded copy of a received frame is made from (R9). -/
def Copy.source (c : Copy) : FrameSource :=
  { number := c.number, hop := c.hop, uf := c.uf, em := c.em, received := c.payload, sound := c.sound
    statusBefore := c.statusBefore, substitute := false }

/-- A substitute frame begins (R10); the frame before it, if any, has ended. DESIGN CHOICE (log entry 31): the flywheel
advances (R22) before the mark of the frame is taken (R33), so that what the mark records carries the new superframe. -/
def State.beginSubstitute (s : State) : State :=
  State.emit (State.steppedForSubstitute s) (State.substituteSource (State.steppedForSubstitute s))

/-- The forwarded copy of the oldest frame due begins (R9, R29). -/
def State.beginForwarded (s : State) (c : Copy) (rest : List Copy) : State :=
  State.emit { s with ringOut := { s.ringOut with copies := rest } } (Copy.source c)

end Sys2Proof.Machine
end

