-- ==== Sys2Proof/Machine/Aligner.lean ====
section
/-! DEFINITION. The Frame Aligner's handling of received frames (spec/02): the search, the confirmation, classification, the
quality window, position and upstream fault, leaving ALIGNED, and the hand-on to the other blocks (R28). -/

namespace Sys2Proof.Machine

/-! ### Leaving ALIGNED (R14, R20, R24, R113) -/

/-- The counts that become 0 and the flag that clears when alignment ends (R14, R20). -/
def Aligner.countsCleared (a : Aligner) (st : AlignState) : Aligner :=
  { a with align := st, consecutiveBad := 0, confirmCount := 0, windowCount := 0, windowReported := false, underTest := []
           keptBits := [] }

/-- The aligner leaves ALIGNED: ALIGN_LOST is recorded, ALIGN_LOSSES counted, and a packet in progress on receive is aborted
(R20, R28, R113). -/
def State.leaveAligned (s : State) (st : AlignState) : State :=
  State.abortCounted
    (State.count
      (State.post
        { s with aligner := Aligner.countsCleared s.aligner st, ringOut := { s.ringOut with copyArriving := false } }
        .alignLost none none)
      .alignLosses)

/-! ### Finding alignment (R16 to R18) -/

/-- The first candidate frame within the kept bits whose check passes, and the bits behind it (R16, R18). -/
def searchKept : List Bool → Option (Frame × List Bool)
  | [] => none
  | b :: bs =>
    if (b :: bs).take 12 = bitsOf syncWord && 1240 ≤ (b :: bs).length && Frame.checkPasses (Frame.ofBits ((b :: bs).take 1240))
    then some (Frame.ofBits ((b :: bs).take 1240), (b :: bs).drop 1240)
    else searchKept bs

/-- A candidate is accepted: CONFIRM, with the flywheel loaded from it (R16). `behind` are the bits already received behind
it (R18). DESIGN CHOICE (log entry 29): the load also replaces a reset pair (0, 0) that no substitute frame has carried yet. -/
def State.acceptCandidate (s : State) (f : Frame) (behind : List Bool) : State :=
  { s with
    aligner := { s.aligner with
      align := .confirm, flywheel := f.number, confirmCount := 0, underTest := [f], keptBits := behind }
    ringOut := { s.ringOut with resetPairDue := false } }

/-- The search in HUNT reaches a candidate that has arrived, if any: kept bits are searched before new ones (R16, R18). -/
def State.huntFor (s : State) (candidate : Option Frame) : State :=
  match searchKept s.aligner.keptBits with
  | some (g, behind) => State.acceptCandidate s g behind
  | none =>
    let s1 := { s with aligner := { s.aligner with keptBits := [] } }
    match candidate with
    | some f => if Frame.syncFound f && Frame.checkPasses f then State.acceptCandidate s1 f [] else s1
    | none => s1

/-- The frame at the expected position: its first bits are the kept ones, as far as they reach, and the rest are those of the
frame that arrives (R17, R18). -/
def frameThrough (kept : List Bool) (f : Frame) : Frame :=
  match kept with
  | [] => f
  | b :: bs => Frame.ofBits (((b :: bs) ++ (Frame.bits f).drop (b :: bs).length).take 1240)

/-- Whether a frame passes the three tests of CONFIRM (R17). -/
def State.confirms (s : State) (f : Frame) : Bool :=
  Frame.syncFound f && Frame.checkPasses f && f.number = successor s.aligner.flywheel

/-- The second good confirming frame takes the aligner to ALIGNED (R17). The next frame to arrive has a forwarded copy only if
no substitute frame is still in emission (R31). DESIGN CHOICE (log entry 34): the confirm count, which R17 raises no further,
becomes 0 here. -/
def State.gainAlignment (s : State) : State :=
  State.post
    { s with
      aligner := { Aligner.countsCleared s.aligner .aligned with flywheel := successor s.aligner.flywheel }
      ringOut := { s.ringOut with copyArriving := !State.substituteInEmission s } }
    .alignGained none none

/-- A frame is tested in CONFIRM (R17); `behind` are the bits already received behind it. A frame that fails leaves every bit
received since the sync word of the candidate but the first (R18). -/
def State.testFrame (s : State) (f : Frame) (behind : List Bool) : State :=
  if State.confirms s f then
    if 1 ≤ s.aligner.confirmCount then State.gainAlignment s
    else
      { s with aligner := { s.aligner with
          flywheel := successor s.aligner.flywheel, confirmCount := 1, underTest := s.aligner.underTest ++ [f]
          keptBits := behind } }
  else
    { s with aligner := { s.aligner with
        align := .hunt, flywheel := successor s.aligner.flywheel, confirmCount := 0, underTest := []
        keptBits := ((s.aligner.underTest ++ [f]).flatMap Frame.bits ++ behind).tail } }

/-- The frame at the expected position in CONFIRM is tested, taken from the kept bits as far as they reach (R17, R18). -/
def State.confirmWith (s : State) (f : Frame) : State :=
  State.testFrame s (frameThrough s.aligner.keptBits f) (s.aligner.keptBits.drop 1240)

/-! ### Classification in ALIGNED (R19 to R27) -/

/-- The quality window closes at a superframe start whose superframe number is divisible by 64 (R23). -/
def Aligner.closeWindow (a : Aligner) : Aligner :=
  if FrameNumber.isStart a.flywheel && a.flywheel.superframe.toNat % 64 = 0 then
    { a with windowCount := 0, windowReported := false }
  else a

/-- The flywheel takes its successor for the frame, and the window may close (R22, R23). -/
def State.stepFlywheel (s : State) : State :=
  { s with aligner := Aligner.closeWindow { s.aligner with flywheel := successor s.aligner.flywheel } }

/-- The position learned from a frame with valid ring time (R26). -/
def State.learnPosition (s : State) (hop : BitVec 6) : State :=
  match positionOfHop hop with
  | some p =>
    if s.aligner.position = some p then s
    else
      State.post { s with aligner := { s.aligner with position := some p } } .positionChanged none (some (0#18 ++ p))
  | none => s

/-- The last UF updated from a good frame (R27). -/
def State.updateLastUf (s : State) (uf : Bool) : State :=
  if s.aligner.lastUf = uf then s
  else
    State.post { s with aligner := { s.aligner with lastUf := uf } } (if uf then .upstreamFault else .upstreamClear) none none

/-- Position and last UF from a good frame; the order of the two posts is a free choice (R26 to R28). -/
def State.learnFrom (s : State) (f : Frame) : State :=
  if f.uf then State.updateLastUf s true
  else if Config.positionPostedFirst s.choices then State.updateLastUf (State.learnPosition (State.draw s) f.hop) false
  else State.learnPosition (State.updateLastUf (State.draw s) false) f.hop

/-- What a good frame does at the aligner (R19, R26, R27). -/
def State.takeGood (s : State) (f : Frame) : State :=
  let s1 := { s with aligner := { s.aligner with consecutiveBad := 0 } }
  State.learnFrom (if f.em then State.count s1 .markedFrames else s1) f

/-- The counter of the failing class is incremented (R19). -/
def State.countClass (s : State) (c : FrameClass) : State :=
  match FrameClass.counter c with
  | some n => State.count s n
  | none => s

/-- What a bad frame counts at the aligner (R19, R23). -/
def State.takeBad (s : State) (c : FrameClass) : State :=
  State.countClass
    { s with aligner := { s.aligner with
        consecutiveBad := s.aligner.consecutiveBad + 1, windowCount := s.aligner.windowCount + 1 } } c

/-- Whether a bad frame just counted reaches the quality threshold with the report flag clear (R24). -/
def Aligner.reachesThreshold (a : Aligner) : Bool :=
  a.threshold ≠ 0 && a.threshold ≤ a.windowCount && !a.windowReported

/-- A bad frame reports a low quality and may end alignment (R20, R24). -/
def State.judgeQuality (s : State) : State :=
  let low := Aligner.reachesThreshold s.aligner
  let s1 := if low then State.post { s with aligner := { s.aligner with windowReported := true } } .qualityLow none none else s
  if 3 ≤ s1.aligner.consecutiveBad || (low && s1.aligner.forcedRehunt) then State.leaveAligned s1 .hunt else s1

/-! ### The copy and the hand-on (R28, R31) -/

/-- The forwarded copy of a frame just classified (R6, R9, R46). The hop and the number are as the frame left them. -/
def State.copyOf (s : State) (f : Frame) (c : FrameClass) : Copy :=
  { number := s.aligner.flywheel, hop := hopOf s.aligner.position, uf := f.uf, em := copyEm f, payload := f.payload
    sound := ringTimeValid c f.uf, statusBefore := [] }

/-- The copy of the frame joins those due, unless the frame is one of the gap of R31; whether the next frame will have one is
settled as it begins to arrive. -/
def State.queueCopy (s : State) (f : Frame) (c : FrameClass) : State :=
  { s with ringOut := { s.ringOut with
      copies := if s.ringOut.copyArriving then s.ringOut.copies ++ [State.copyOf s f c] else s.ringOut.copies
      copyArriving := !State.substituteInEmission s } }

/-- The Map Store takes a frame: at a superframe start with valid ring time it tests the schedule (R62, R66). -/
def State.fireSwitch (rt : Bool) (s : State) : State :=
  if rt && FrameNumber.isStart s.aligner.flywheel then
    let r := MapStore.fire s.mapStore s.aligner.flywheel.superframe
    match r.2 with
    | some (k, v) => State.post { s with mapStore := r.1 } k none (some v)
    | none => { s with mapStore := r.1 }
  else s

/-- The Watch Unit takes a frame (R93). -/
def State.watchFrame (copied rt : Bool) (f : Frame) (s : State) : State :=
  if rt then State.evaluateWatches copied f.payload (FrameNumber.isStart s.aligner.flywheel) s else s

/-- The Service Channel Unit takes a frame (R110). -/
def State.serveFrame (good rt : Bool) (f : Frame) (s : State) : State :=
  if good then State.receiveSegment s f.service rt else State.abortCounted s

/-- The three blocks take the frame in an order that is a free choice (R28). -/
def State.handOn (s : State) (copied good rt : Bool) (f : Frame) : State :=
  let s1 := State.draw s
  match Config.handOnOrder s.choices with
  | 0 => State.serveFrame good rt f (State.watchFrame copied rt f (State.fireSwitch rt s1))
  | 1 => State.watchFrame copied rt f (State.serveFrame good rt f (State.fireSwitch rt s1))
  | 2 => State.serveFrame good rt f (State.fireSwitch rt (State.watchFrame copied rt f s1))
  | 3 => State.fireSwitch rt (State.serveFrame good rt f (State.watchFrame copied rt f s1))
  | 4 => State.watchFrame copied rt f (State.fireSwitch rt (State.serveFrame good rt f s1))
  | 5 => State.fireSwitch rt (State.watchFrame copied rt f (State.serveFrame good rt f s1))

/-- What the aligner takes from a classified frame for itself (R19, R26, R27). -/
def State.takeClassified (s : State) (f : Frame) (c : FrameClass) : State :=
  if c = .good then State.takeGood s f else State.takeBad s c

/-- A frame at the expected position is classified in ALIGNED and handed on (R19 to R28). The arbiter's choice for an emitted
frame in progress lies well before it (R29), and is settled first (R125, log entry 28). -/
def State.classify (s : State) (f : Frame) : State :=
  let c := frameClass f (successor s.aligner.flywheel)
  let rt := ringTimeValid c f.uf
  let s1 := State.queueCopy (State.takeClassified (State.stepFlywheel (State.settleChoice s)) f c) f c
  let s2 := State.handOn s1 s.ringOut.copyArriving (c = .good) rt f
  if c = .good then s2 else State.judgeQuality s2

end Sys2Proof.Machine
end

