-- ==== Sys2Proof/Machine/RingCommands.lean ====
section
/-! DEFINITION. The meanings of the commands of reset, ring-in, ring-out and the retry timers. A command whose event the node
cannot take in its present state changes nothing (log entry 4); while RESET_N is low every activity has stopped (R184). -/

namespace Sys2Proof.Machine

/-- A command of an event that the node takes only when `may` holds. -/
def takenWhen (may : Bool) (s t : State) : Host.Outcome State Fault Refusal := .next (if s.resetN && may then t else s)

/-- POWER_ON (R184): as a rising edge of RESET_N if RESET_N is high, otherwise held in reset until that edge. -/
def execPowerOn (resetHigh carrier : Bool) (s : State) : Host.Outcome State Fault Refusal :=
  .next { State.released s carrier with resetN := resetHigh }

/-- HARDWARE_RESET_ASSERT (R184). -/
def execHardwareResetAssert (s : State) : Host.Outcome State Fault Refusal := .next (State.heldInReset s)

/-- HARDWARE_RESET_RELEASE (R184, R185): no event is recorded. Without a rising edge nothing changes. -/
def execHardwareResetRelease (carrier : Bool) (s : State) : Host.Outcome State Fault Refusal :=
  .next (if s.resetN then s else State.released s carrier)

/-- SIGNAL_LOST (R13, R14). -/
def execSignalLost (s : State) : Host.Outcome State Fault Refusal :=
  takenWhen (s.aligner.align ≠ .noSignal) s
    (let s1 := State.post { s with aligner := { s.aligner with carrier := false } } .signalLost none none
     if s.aligner.align = .aligned then State.leaveAligned s1 .noSignal
     else { s1 with aligner := Aligner.countsCleared s1.aligner .noSignal })

/-- SIGNAL_BACK (R15): the search begins with the first bit that arrives from here on. -/
def execSignalBack (s : State) : Host.Outcome State Fault Refusal :=
  takenWhen (s.aligner.align = .noSignal) s
    (State.post { s with aligner := { s.aligner with carrier := true, align := .hunt, keptBits := [] } } .signalBack none none)

/-- FRAME_DUE_WITHOUT_CLOCK (R13): the missing bits are 0, and the frame is classified. -/
def execFrameDueWithoutClock (received : List Bool) (s : State) : Host.Outcome State Fault Refusal :=
  takenWhen (s.aligner.align = .aligned) s (State.classify s (Frame.ofBits received))

/-- HUNT_CANDIDATE (R16, R18). -/
def execHuntCandidate (candidate : Option Frame) (s : State) : Host.Outcome State Fault Refusal :=
  takenWhen (s.aligner.align = .hunt) s (State.huntFor s candidate)

/-- CONFIRM_FRAME (R17, R18). -/
def execConfirmFrame (f : Frame) (s : State) : Host.Outcome State Fault Refusal :=
  takenWhen (s.aligner.align = .confirm) s (State.confirmWith s f)

/-- FRAME_CLASSIFIED (R19). -/
def execFrameClassified (f : Frame) (s : State) : Host.Outcome State Fault Refusal :=
  takenWhen (s.aligner.align = .aligned) s (State.classify s f)

/-- SUBSTITUTE_FRAME_START (R10, R30): the emitted frame before it, if any, has ended. -/
def execSubstituteFrameStart (s : State) : Host.Outcome State Fault Refusal :=
  takenWhen (State.substituteMayStart (State.endFrame s)) s (State.beginSubstitute (State.endFrame s))

/-- FORWARDED_FRAME_START (R9, R29): the emitted frame before it, if any, has ended. -/
def execForwardedFrameStart (s : State) : Host.Outcome State Fault Refusal :=
  match (State.endFrame s).ringOut.copies with
  | c :: rest => takenWhen true s (State.beginForwarded (State.endFrame s) c rest)
  | [] => .next s

/-- PAYLOAD_COMPLETE (R51, R76). -/
def execPayloadComplete (s : State) : Host.Outcome State Fault Refusal := takenWhen true s (State.finishPayload s)

/-- Whether the emitted frame in progress carries the END of an own packet (R127). -/
def State.carriesOwnEnd (s : State) : Bool :=
  match s.ringOut.current with
  | some e =>
    match e.ends with
    | .reply => true
    | .notification _ _ => true
    | .nothing => false
    | .forwarded _ => false
  | none => false

/-- OWN_PACKET_COMPLETE (R127): the emitted frame that carries an own packet's END ends, and its owner gets the report. -/
def execOwnPacketComplete (s : State) : Host.Outcome State Fault Refusal :=
  takenWhen (State.carriesOwnEnd s) s (State.endFrame s)

/-- Whether the emitted frame in progress carries the END of broadcast request `n`'s forwarded copy (R127, R144). -/
def State.carriesForwardedEnd (s : State) (n : Nat) : Bool :=
  match s.ringOut.current with
  | some e => e.ends = .forwarded n
  | none => false

/-- Whether a report for request `n` can fall here though the frame before did not carry its END: between two emitted
frames, no packet in emission, and no forwarded copy of the request in the transit queue (log entry 10). -/
def State.mayReportForwarded (s : State) (n : Nat) : Bool :=
  s.ringOut.current.isNone && s.service.emission = .nothing && s.service.transit.all fun p => p.request ≠ some n

/-- FORWARDED_END_REPORT (R127, R144): the emitted frame that carries the END ends, and the engine gets the report. -/
def execForwardedEndReport (request : Nat) (s : State) : Host.Outcome State Fault Refusal :=
  takenWhen (State.carriesForwardedEnd s request || State.mayReportForwarded s request) s
    (if State.carriesForwardedEnd s request then State.endFrame s else State.forwardedReport s request)

/-- EMITTED_FRAME_BOUNDARY (R144): the emitted frame in progress, if any, ends, and a reset that waits for the boundary takes
effect. -/
def execEmittedFrameBoundary (s : State) : Host.Outcome State Fault Refusal := takenWhen true s (State.endFrame s)

/-- RETRY_TIMER_EXPIRY of one class (R164, R166). -/
def execRetryTimerExpiry (cls : ClassId) (s : State) : Host.Outcome State Fault Refusal :=
  takenWhen (EventUnit.expiryDue s.events cls) s
    { s with
      events := EventUnit.expire s.aligner.flywheel.superframe s.engine.address (State.notificationEmitting s) cls s.events }

end Sys2Proof.Machine
end

