-- ==== Sys2Proof/Machine/PortCommands.lean ====
section
/-! DEFINITION. The meanings of the commands of the local port. -/

namespace Sys2Proof.Machine

/-- A local frame start in EXTERNAL: the watchdog count becomes 0, a LOST timing is restored, and the frame begins (R85, R86,
R77). -/
def State.externalStart (s : State) : State :=
  State.beginLocalFrame
    (if s.port.timingLost then State.restoreLocalTiming s else { s with port := { s.port with watchdog := 0 } })

/-- LOCAL_FRAME_START (R71, R73, R77). In FOLLOW it is taken when an emitted frame has begun and its local frame has not. -/
def execLocalFrameStart (s : State) : Host.Outcome State Fault Refusal :=
  match s.port.mode with
  | .disabled => .next s
  | .follow => takenWhen s.port.startDue s (State.beginLocalFrame s)
  | .external => takenWhen true s (State.externalStart s)

/-- LOCAL_FRAME_COMPLETE (R71, R74, R78): edge 768 of the local frame in progress. -/
def execLocalFrameComplete (add : LocalSamples) (s : State) : Host.Outcome State Fault Refusal :=
  takenWhen (s.port.mode ≠ .disabled) s (State.completeLocalFrame s add)

/-- Whether the coming emitted frame mark brings the watchdog count from 3 to 4 (R85). -/
def LocalPort.lossDue (p : LocalPort) : Bool := p.mode = .external && !p.timingLost && 3 ≤ p.watchdog

/-- The watchdog's share of the coming emitted frame mark, which loses the local timing (R85). -/
def State.watchdogShare (s : State) : State :=
  let s1 := State.loseLocalTiming s
  { s1 with port := { s1.port with markTaken := true } }

/-- LOCAL_TIMING_LOST (R85): the coming emitted frame mark brings the watchdog count from 3 to 4. That mark's share at the
watchdog is then taken. DESIGN CHOICE (log entries 12 and 14): the mark is that of the next emitted frame, so that the frame in
progress, if any, ends first, with what earlier commands left out: a payload that is not complete is completed, and its drop
frame, with a delete slip if the store is full, is written before both stores stop. -/
def execLocalTimingLost (s : State) : Host.Outcome State Fault Refusal :=
  takenWhen (LocalPort.lossDue (State.endFrame s).port) s (State.watchdogShare (State.endFrame s))

end Sys2Proof.Machine
end

