-- ==== Sys2Proof/Machine/RequestCommands.lean ====
section
/-! DEFINITION. The meanings of the commands of the management plane: the taking of a queued request, and the delivery of one
request of each operation (R133). -/

namespace Sys2Proof.Machine

/-- The nine parameter octets of a WRITE_NODE_SETUP (R146). -/
def nodeSetupOctets (select : Octet) (idle : Sample) (threshold : BitVec 16) (rehunt mode retry : Octet) : List Octet :=
  select :: (octets24 idle ++ octets16 threshold ++ [rehunt, mode, retry])

/-- TAKE_REQUEST (R136). -/
def execTakeRequest (s : State) : Host.Outcome State Fault Refusal := takenWhen true s (State.take s)

/-- IDENTIFY (R194). -/
def execIdentify (d : Delivery) (params : List Octet) (s : State) : Host.Outcome State Fault Refusal :=
  .next (State.deliver s d .identify params)

/-- ASSIGN_ADDRESS (R191). -/
def execAssignAddress (d : Delivery) (params : List Octet) (s : State) : Host.Outcome State Fault Refusal :=
  .next (State.deliver s d .assignAddress params)

/-- READ_STATUS (R181). -/
def execReadStatus (d : Delivery) (params : List Octet) (s : State) : Host.Outcome State Fault Refusal :=
  .next (State.deliver s d .readStatus params)

/-- SET_IDLE_WORD (R12, R146): bit 0 of the select octet. -/
def execSetIdleWord (d : Delivery) (word : Sample) (s : State) : Host.Outcome State Fault Refusal :=
  .next (State.deliver s d .writeNodeSetup (nodeSetupOctets 0x01#8 word 0#16 0#8 0#8 0#8))

/-- SET_QUALITY_THRESHOLD (R25, R146): bit 1 of the select octet. -/
def execSetQualityThreshold (d : Delivery) (threshold : BitVec 16) (s : State) : Host.Outcome State Fault Refusal :=
  .next (State.deliver s d .writeNodeSetup (nodeSetupOctets 0x02#8 0#24 threshold 0#8 0#8 0#8))

/-- SET_FORCED_REHUNT (R25, R146): bit 2 of the select octet. -/
def execSetForcedRehunt (d : Delivery) (code : Octet) (s : State) : Host.Outcome State Fault Refusal :=
  .next (State.deliver s d .writeNodeSetup (nodeSetupOctets 0x04#8 0#24 0#16 code 0#8 0#8))

/-- SET_LOCAL_MODE (R87, R146): bit 3 of the select octet. -/
def execSetLocalMode (d : Delivery) (code : Octet) (s : State) : Host.Outcome State Fault Refusal :=
  .next (State.deliver s d .writeNodeSetup (nodeSetupOctets 0x08#8 0#24 0#16 0#8 code 0#8))

/-- SET_RETRY_TIME (R163, R146): bit 4 of the select octet. -/
def execSetRetryTime (d : Delivery) (time : Octet) (s : State) : Host.Outcome State Fault Refusal :=
  .next (State.deliver s d .writeNodeSetup (nodeSetupOctets 0x10#8 0#24 0#16 0#8 0#8 time))

/-- WRITE_MAP (R39, R40). -/
def execWriteMap (d : Delivery) (params : List Octet) (s : State) : Host.Outcome State Fault Refusal :=
  .next (State.deliver s d .writeMap params)

/-- READ_MAP (R41). -/
def execReadMap (d : Delivery) (params : List Octet) (s : State) : Host.Outcome State Fault Refusal :=
  .next (State.deliver s d .readMap params)

/-- COPY_ACTIVE (R42). -/
def execCopyActive (d : Delivery) (params : List Octet) (s : State) : Host.Outcome State Fault Refusal :=
  .next (State.deliver s d .copyActive params)

/-- CHECK_MAP (R43, R44). -/
def execCheckMap (d : Delivery) (params : List Octet) (s : State) : Host.Outcome State Fault Refusal :=
  .next (State.deliver s d .checkMap params)

/-- SCHEDULE_SWITCH (R57, R58). -/
def execScheduleSwitch (d : Delivery) (params : List Octet) (s : State) : Host.Outcome State Fault Refusal :=
  .next (State.deliver s d .scheduleSwitch params)

/-- CANCEL_SWITCH (R61). -/
def execCancelSwitch (d : Delivery) (params : List Octet) (s : State) : Host.Outcome State Fault Refusal :=
  .next (State.deliver s d .cancelSwitch params)

/-- WRITE_WATCH (R103, R104). -/
def execWriteWatch (d : Delivery) (params : List Octet) (s : State) : Host.Outcome State Fault Refusal :=
  .next (State.deliver s d .writeWatch params)

/-- READ_WATCH (R105). -/
def execReadWatch (d : Delivery) (params : List Octet) (s : State) : Host.Outcome State Fault Refusal :=
  .next (State.deliver s d .readWatch params)

/-- WRITE_EVENT_SETUP (R168, R169). -/
def execWriteEventSetup (d : Delivery) (params : List Octet) (s : State) : Host.Outcome State Fault Refusal :=
  .next (State.deliver s d .writeEventSetup params)

/-- READ_CLASS (R170). -/
def execReadClass (d : Delivery) (params : List Octet) (s : State) : Host.Outcome State Fault Refusal :=
  .next (State.deliver s d .readClass params)

/-- DISCARD_CLASS (R171). -/
def execDiscardClass (d : Delivery) (params : List Octet) (s : State) : Host.Outcome State Fault Refusal :=
  .next (State.deliver s d .discardClass params)

/-- READ_COUNTERS with the clear flag 0 (R178, R179). -/
def execReadCounters (d : Delivery) (reserved : BitVec 7) (s : State) : Host.Outcome State Fault Refusal :=
  .next (State.deliver s d .readCounters [reserved ++ 0#1])

/-- READ_COUNTERS with the clear flag 1 (R178, R179). -/
def execReadCountersClear (d : Delivery) (reserved : BitVec 7) (s : State) : Host.Outcome State Fault Refusal :=
  .next (State.deliver s d .readCounters [reserved ++ 1#1])

/-- RESET_NODE with scope COLD (R186). -/
def execResetNodeCold (d : Delivery) (s : State) : Host.Outcome State Fault Refusal :=
  .next (State.deliver s d .resetNode [0x00#8])

/-- RESET_NODE with scope WARM (R186). -/
def execResetNodeWarm (d : Delivery) (s : State) : Host.Outcome State Fault Refusal :=
  .next (State.deliver s d .resetNode [0x01#8])

/-- WRITE_NODE_SETUP (R146 to R148). -/
def execWriteNodeSetup (d : Delivery) (params : List Octet) (s : State) : Host.Outcome State Fault Refusal :=
  .next (State.deliver s d .writeNodeSetup params)

end Sys2Proof.Machine
end

