-- ==== Sys2Proof/Machine/Dispatch.lean ====
section
/-! DEFINITION. The meaning of each command: one arm per constructor of `Instr`. -/

namespace Sys2Proof.Machine

def exec (i : Instr) (s : State) : Host.Outcome State Fault Refusal :=
  match i with
  | .powerOn resetHigh carrier => Sys2Proof.Machine.execPowerOn resetHigh carrier s
  | .hardwareResetAssert => Sys2Proof.Machine.execHardwareResetAssert s
  | .hardwareResetRelease carrier => Sys2Proof.Machine.execHardwareResetRelease carrier s
  | .signalLost => Sys2Proof.Machine.execSignalLost s
  | .signalBack => Sys2Proof.Machine.execSignalBack s
  | .frameDueWithoutClock received => Sys2Proof.Machine.execFrameDueWithoutClock received s
  | .huntCandidate candidate => Sys2Proof.Machine.execHuntCandidate candidate s
  | .confirmFrame f => Sys2Proof.Machine.execConfirmFrame f s
  | .frameClassified f => Sys2Proof.Machine.execFrameClassified f s
  | .substituteFrameStart => Sys2Proof.Machine.execSubstituteFrameStart s
  | .forwardedFrameStart => Sys2Proof.Machine.execForwardedFrameStart s
  | .payloadComplete => Sys2Proof.Machine.execPayloadComplete s
  | .ownPacketComplete => Sys2Proof.Machine.execOwnPacketComplete s
  | .forwardedEndReport request => Sys2Proof.Machine.execForwardedEndReport request s
  | .localFrameStart => Sys2Proof.Machine.execLocalFrameStart s
  | .localFrameComplete add => Sys2Proof.Machine.execLocalFrameComplete add s
  | .localTimingLost => Sys2Proof.Machine.execLocalTimingLost s
  | .retryTimerExpiry cls => Sys2Proof.Machine.execRetryTimerExpiry cls s
  | .takeRequest => Sys2Proof.Machine.execTakeRequest s
  | .identify d params => Sys2Proof.Machine.execIdentify d params s
  | .assignAddress d params => Sys2Proof.Machine.execAssignAddress d params s
  | .readStatus d params => Sys2Proof.Machine.execReadStatus d params s
  | .setIdleWord d word => Sys2Proof.Machine.execSetIdleWord d word s
  | .setQualityThreshold d threshold => Sys2Proof.Machine.execSetQualityThreshold d threshold s
  | .setForcedRehunt d code => Sys2Proof.Machine.execSetForcedRehunt d code s
  | .setLocalMode d code => Sys2Proof.Machine.execSetLocalMode d code s
  | .setRetryTime d time => Sys2Proof.Machine.execSetRetryTime d time s
  | .writeMap d params => Sys2Proof.Machine.execWriteMap d params s
  | .readMap d params => Sys2Proof.Machine.execReadMap d params s
  | .copyActive d params => Sys2Proof.Machine.execCopyActive d params s
  | .checkMap d params => Sys2Proof.Machine.execCheckMap d params s
  | .scheduleSwitch d params => Sys2Proof.Machine.execScheduleSwitch d params s
  | .cancelSwitch d params => Sys2Proof.Machine.execCancelSwitch d params s
  | .writeWatch d params => Sys2Proof.Machine.execWriteWatch d params s
  | .readWatch d params => Sys2Proof.Machine.execReadWatch d params s
  | .writeEventSetup d params => Sys2Proof.Machine.execWriteEventSetup d params s
  | .readClass d params => Sys2Proof.Machine.execReadClass d params s
  | .discardClass d params => Sys2Proof.Machine.execDiscardClass d params s
  | .readCounters d reserved => Sys2Proof.Machine.execReadCounters d reserved s
  | .readCountersClear d reserved => Sys2Proof.Machine.execReadCountersClear d reserved s
  | .resetNodeCold d => Sys2Proof.Machine.execResetNodeCold d s
  | .resetNodeWarm d => Sys2Proof.Machine.execResetNodeWarm d s
  | .emittedFrameBoundary => Sys2Proof.Machine.execEmittedFrameBoundary s
  | .writeNodeSetup d params => Sys2Proof.Machine.execWriteNodeSetup d params s

end Sys2Proof.Machine
end

