-- ==== Sys2Proof/Machine/Pins.lean ====
section
/-! DEFINITION. What the node's pins show, read from the state (R11, R31, R71 to R73, R184, R197, spec/12 12.11). -/

namespace Sys2Proof.Machine

/-- How the node holds a local pin (R197). -/
inductive PinDirection
  | input
  /-- An input whose level has no effect. -/
  | ignored
  | output
  /-- Not driven: high impedance. -/
  | notDriven
  deriving DecidableEq, Repr

/-- The directions of the four local pins (R197). -/
structure LocalPins where
  lclk : PinDirection
  lfs : PinDirection
  ldi : PinDirection
  ldo : PinDirection
  deriving DecidableEq, Repr

/-- Whether LDO is driven in a mode that drives it: the Drop Store is PRIMING or RUNNING (R72, R197). -/
def LocalPort.ldoDirection (p : LocalPort) : PinDirection :=
  match p.drop.state with
  | .stopped => .notDriven
  | .priming => .output
  | .running => .output

/-- The directions that a local mode gives the pins (R72, R197). -/
def LocalPort.pins (p : LocalPort) : LocalPins :=
  match p.mode with
  | .disabled => { lclk := .ignored, lfs := .ignored, ldi := .ignored, ldo := .notDriven }
  | .follow => { lclk := .output, lfs := .output, ldi := .input, ldo := LocalPort.ldoDirection p }
  | .external => { lclk := .input, lfs := .input, ldi := .input, ldo := LocalPort.ldoDirection p }

/-- The directions of the local pins: high impedance, all of them, while RESET_N is low (R184, R197). -/
def State.pins (s : State) : LocalPins :=
  if s.resetN then LocalPort.pins s.port
  else { lclk := .notDriven, lfs := .notDriven, ldi := .notDriven, ldo := .notDriven }

/-- The level of LCLK (R73, R87, R197). -/
inductive LclkLevel
  /-- The node does not drive LCLK. -/
  | notDriven
  /-- Driven at 0. -/
  | heldLow
  /-- Driven with the 768 periods of a local frame in each emitted frame. -/
  | running
  deriving DecidableEq, Repr

/-- In FOLLOW a local frame is under way: its emitted frame has begun and its edge 768 has not come (R73). -/
def LocalPort.frameUnderWay (p : LocalPort) : Bool := p.startDue || LocalPort.frameInProgress p

/-- The level of LCLK (R73, R87, R197). Where the node drives it, it runs through each local frame and is held at 0 otherwise:
through the gap of R31 once the last local frame has completed, and after a change to FOLLOW until the next emitted frame
begins. -/
def State.lclkLevel (s : State) : LclkLevel :=
  if (State.pins s).lclk ≠ .output then .notDriven
  else if LocalPort.frameUnderWay s.port then .running
  else .heldLow

/-- The level of LFS in LCLK period `j` of a local frame, where the node drives it: 1 in period 0, which contains the frame start,
and 0 in every other period and wherever LCLK is held (R73, R87, R197); none where the node does not drive it. -/
def State.lfsLevel (s : State) (j : Nat) : Option Bool :=
  if (State.pins s).lfs ≠ .output then none
  else some (LocalPort.frameUnderWay s.port && j = 0)

/-- Bit `j`, 1..768, of a local frame: bit 1 is bit 23 of channel 0 and bit 768 is bit 0 of channel 31 (R71). -/
def localBit (f : LocalSamples) (j : Nat) : Bool := (f.toList.getD ((j - 1) / 24) 0#24).getMsbD ((j - 1) % 24)

/-- The level of LDO in bit period `j` of a local frame. It is the frame's bit while LDO is driven within a local frame, and 0
otherwise: driven 0 outside the 768 bits, pulled down where it is not driven (R71, R72, R77, R197). -/
def State.ldoLevel (s : State) (j : Nat) : Bool :=
  (State.pins s).ldo = .output && 1 ≤ j && j ≤ 768 &&
    (match s.port.localFrame with
      | some lf => lf.edges < 768 && (match lf.out with | some f => localBit f j | none => false)
      | none => false)

/-- What the ring-out line does (R11, R31, R184). -/
inductive RingOutLine
  /-- A frame is sent. -/
  | sending (bits : List Bool)
  /-- No frame: 0 bits with the line clock running, as in the gap of R31. -/
  | zeroBits
  /-- RESET_N is low: held at 0 with no line clock. -/
  | noClock
  deriving DecidableEq, Repr

/-- The ring-out line (R1, R31, R184). -/
def State.ringOutLine (s : State) : RingOutLine :=
  if !s.resetN then .noClock
  else
    match s.ringOut.current with
    | some e => .sending (Frame.bits e.frame)
    | none => .zeroBits

end Sys2Proof.Machine
end

