-- ==== Sys2Proof/Safety.lean ====
section
/-! DEFINITION. The terms in which claims about the node are stated: what each block's state keeps to (the invariants that the
manual states), and when a delivered request is taken and answered at once. -/

namespace Sys2Proof.Machine

/-! ### Invariants of the blocks -/

/-- The active bank, and a shadow that is CHECKED or PENDING, name no channel in two drop entries (R38). -/
abbrev MapStore.Sound (m : MapStore) : Prop :=
  Bank.conflictFree (MapStore.activeBank m) = true ∧
    (m.shadow ≠ .editable → Bank.conflictFree (MapStore.shadowBank m) = true)

/-- A store's fill is 0..4, a store that is RUNNING with fill 0 holds a last delivered frame, a PRIMING store holds at most one
frame and a STOPPED one none, both without a last delivered frame (R75, R80). -/
abbrev Store.Sound (st : Store) : Prop :=
  st.frames.length ≤ 4 ∧
    (st.state = .running → st.frames = [] → st.last.isSome = true) ∧
    (st.state = .priming → st.frames.length ≤ 1 ∧ st.last = none) ∧
    (st.state = .stopped → st.frames = [] ∧ st.last = none)

/-- The port in the sense of R72, R85 and R87: the watchdog runs in EXTERNAL alone, a LOST timing stands at count 4, both stores
are STOPPED exactly in DISABLED and while timing is LOST, and a local frame start is due in FOLLOW alone. -/
abbrev LocalPort.Sound (p : LocalPort) : Prop :=
  p.watchdog ≤ 4 ∧
    (p.mode ≠ .external → p.watchdog = 0 ∧ p.timingLost = false) ∧
    (p.timingLost = true ↔ p.watchdog = 4) ∧
    (p.drop.state = .stopped ↔ p.mode = .disabled ∨ p.timingLost = true) ∧
    (p.add.state = .stopped ↔ p.mode = .disabled ∨ p.timingLost = true) ∧
    (p.startDue = true → p.mode = .follow) ∧
    (p.mode = .disabled → p.localFrame = none)

/-- An emitted frame is in progress whose payload is not complete. -/
def RingOut.payloadOpen (r : RingOut) : Bool :=
  match r.current with
  | some e => !e.payloadDone
  | none => false

/-- In FOLLOW each store takes one read and one write in every emitted frame, in the order of R84: a RUNNING Drop Store holds 1
frame between its read and its write and 2 otherwise, a RUNNING Add Store holds 1 from its read to its write and 2
otherwise. -/
abbrev State.FollowSteady (s : State) : Prop :=
  s.resetN = true → s.port.mode = .follow →
    (s.port.startDue = true → RingOut.payloadOpen s.ringOut = true ∧ LocalPort.frameInProgress s.port = false) ∧
    (s.port.drop.state = .running →
      s.port.drop.frames.length = if RingOut.payloadOpen s.ringOut ∧ s.port.startDue = false then 1 else 2) ∧
    (s.port.add.state = .running →
      s.port.add.frames.length = if LocalPort.frameInProgress s.port ∨ s.port.startDue then 1 else 2) ∧
    (s.port.drop.state = .priming → s.port.drop.frames.length ≤ 1) ∧
    (s.port.add.state = .priming → s.port.add.frames.length ≤ 1)

/-- A watch entry's setup and dynamic fields in the ranges of spec/06 6.1, the silence counter and the candidate count within
the bounds of R92, the kept values masked (R91), and the restarted state in a disabled watch (R91). -/
abbrev Watch.Sound (w : Watch) : Prop :=
  (1 ≤ w.setup.limit ∧ w.setup.limit ≤ 4095) ∧ (1 ≤ w.setup.debounce ∧ w.setup.debounce ≤ 15) ∧
    w.silence ≤ w.setup.limit ∧ (w.status = .silent ↔ w.silence = 0) ∧
    w.candidateCount < w.setup.debounce ∧ (w.candidate = none ↔ w.candidateCount = 0) ∧
    w.stable.all (fun v => v &&& w.setup.mask = v) = true ∧
    w.candidate.all (fun v => v &&& w.setup.mask = v) = true ∧
    (w.setup.mode = .activity → w.stable = none ∧ w.candidate = none ∧ w.candidateCount = 0) ∧
    (w.setup.enabled = false → w = Watch.restarted w.setup)

/-- A packet is being put into the transit queue on receive (spec/07 7.2). -/
def ServiceChannel.filling (c : ServiceChannel) : Bool :=
  match c.receiving with
  | .nothing => false
  | .consume _ => false
  | .copyForward _ => true
  | .forward => true

/-- The assembly of the packet in progress, empty where there is none (spec/07 7.2). -/
def Receiving.assembly : Receiving → List Octet
  | .nothing => []
  | .consume a => a
  | .copyForward a => a
  | .forward => []

/-- A transit packet in a form that R119 to R123 allow: what is complete or has not begun holds an octet, and what is aborted
has begun. -/
def TransitPacket.sound (p : TransitPacket) : Bool :=
  (match p.mark with
    | .incomplete => p.forwarded ≠ 0 || !p.held.isEmpty
    | .complete => !p.held.isEmpty
    | .aborted => p.forwarded ≠ 0)

/-- The transit queue holds at most 256 octets (R120), its newest packet alone is incomplete, exactly while it is being filled,
its head alone has begun forwarding, exactly while it is in emission (R119, R124), and an assembly holds at most 64 octets
(R116). -/
abbrev ServiceChannel.Sound (c : ServiceChannel) : Prop :=
  transitTotal c.transit ≤ 256 ∧ (Receiving.assembly c.receiving).length ≤ 64 ∧
    c.transit.all TransitPacket.sound = true ∧
    (∀ p ∈ c.transit.dropLast, p.mark ≠ .incomplete) ∧
    (c.transit.getLast?.any (fun p => p.mark = .incomplete) = ServiceChannel.filling c) ∧
    (∀ p ∈ c.transit.tail, p.forwarded = 0) ∧
    (c.transit.head?.any (fun p => p.forwarded ≠ 0) = decide (c.emission = .transit)) ∧
    c.waitCount ≤ 65 ∧ c.openChoice.all (· ≤ 65) = true

/-- A class's service state: 1..4 carried records, which are the oldest of its queue, octet for octet as the notification
carries them behind the lost snapshot and their number (R158, R159); a snapshot no larger than the lost count (R155), a retry
count of at most 4 and a timer of at most 4080 (spec/09 9.1). -/
def InService.sound (v : InService) (queue : List EventRecord) (lost : BitVec 8) : Bool :=
  1 ≤ v.carried && v.carried ≤ 4 && v.carried ≤ queue.length && v.snapshot.toNat ≤ lost.toNat && v.retries ≤ 4 &&
    v.timer.all (· ≤ 4080) &&
    v.packet.params = [v.snapshot, octetOf v.carried] ++ (queue.take v.carried).flatMap EventRecord.octets

/-- The Event Unit: free records and held records number 64 (R153), every class in service is sound, the priority order holds
each class once and is 0..7 in FIXED (R156), and the slot holds a packet of a class in service (R158, R162). -/
abbrev EventUnit.Sound (ev : EventUnit) : Prop :=
  ev.free + EventUnit.heldRecords ev = 64 ∧
    (∀ c : ClassId, ev.service[c].all (fun v => InService.sound v ev.queues[c] ev.lost[c]) = true) ∧
    (ev.order.length = 8 ∧ ev.order.Nodup) ∧ (ev.orderMode = .fixed → ev.order = fixedOrder) ∧
    ev.slot.all (fun x => ev.service[x.1].any fun v => v.packet.sequence = x.2.sequence) = true

/-- The notifier is ACTIVE only at a node with an address, and in QUIET no class is in service, the slot is empty and no change
to QUIET waits (R166). -/
abbrev State.NotifierSound (s : State) : Prop :=
  (s.events.notifier = .active → s.engine.address.isSome = true) ∧
    (s.events.notifier = .quiet →
      (∀ c : ClassId, s.events.service[c] = none) ∧ s.events.slot = none ∧ s.events.quietWait = [])

/-- An address or a position that is held lies in 1..62 (spec/00_scope.md 4.3). -/
def inStationRange (x : Option (BitVec 6)) : Bool := x.all fun v => 1 ≤ v.toNat && v.toNat ≤ 62

/-- Two requests that R134 calls duplicates. -/
def Request.duplicates (q r : Request) : Bool := RequestClass.same q.cls r.cls && q.packet.sequence = r.packet.sequence

/-- The engine's queues hold at most 4 entries each, no two queued requests are duplicates (R134), and the address lies in its
range (spec/08 8.2). -/
abbrev Engine.Sound (e : Engine) : Prop :=
  e.requests.length ≤ 4 ∧ e.replies.length ≤ 4 ∧ e.requests.Pairwise (fun q r => Request.duplicates q r = false) ∧
    inStationRange e.address = true

/-- How many frames of the quality window have passed with the frame of a flywheel pair (R23): its place among the 1024 frames
of 64 superframes, counted from 1. -/
def FrameNumber.placeInWindow (n : FrameNumber) : Nat := 16 * (n.superframe.toNat % 64) + n.index.toNat + 1

/-- The aligner's values lie in the ranges of spec/02 2.1. The quality window counts at most the frames that it has held (R23).
Outside ALIGNED the counts are 0 and no frame that arrives will have a copy (R14, R20, R31). The carrier is absent exactly in
NO_SIGNAL (R13 to R15). -/
abbrev State.AlignerSound (s : State) : Prop :=
  s.aligner.consecutiveBad ≤ 2 ∧ s.aligner.confirmCount ≤ 1 ∧ s.aligner.threshold ≤ 1023 ∧
    (s.aligner.align = .aligned → s.aligner.windowCount ≤ FrameNumber.placeInWindow s.aligner.flywheel) ∧
    (s.aligner.align ≠ .aligned →
      s.aligner.consecutiveBad = 0 ∧ s.aligner.windowCount = 0 ∧ s.aligner.windowReported = false ∧
        s.ringOut.copyArriving = false) ∧
    (s.aligner.align ≠ .confirm → s.aligner.confirmCount = 0 ∧ s.aligner.underTest = []) ∧
    (s.aligner.align = .confirm → s.aligner.underTest.length = s.aligner.confirmCount + 1) ∧
    s.aligner.keptBits.length + 1240 * s.aligner.underTest.length < 3720 ∧
    (s.aligner.align ≠ .hunt → s.aligner.align ≠ .confirm → s.aligner.keptBits = []) ∧
    (s.aligner.align = .noSignal ↔ s.aligner.carrier = false)

/-- An emitted frame with the sync word 9C7h, a correct check and the hop of a station that is not the ring master; a substitute
frame has UF 1 and EM 0 (R3, R4, R6, R9, R10). -/
def Emission.sound (e : Emission) : Bool :=
  Frame.syncFound e.frame && Frame.checkPasses e.frame && e.frame.hop ≠ 0#6 &&
    (!e.substitute || (e.frame.uf && !e.frame.em))

/-- Ring-out: the emitted frame in progress is sound, and so are the hops of the copies that are due and the position they come
from. While RESET_N is low no frame is emitted and none is due (R11). -/
abbrev State.RingOutSound (s : State) : Prop :=
  s.ringOut.current.all Emission.sound = true ∧ s.ringOut.copies.all (fun c => c.hop ≠ 0#6) = true ∧
    inStationRange s.aligner.position = true ∧
    (s.resetN = false → s.ringOut.current = none ∧ s.ringOut.copies = [])

/-- A packet that fits the 64 octets of R131. -/
def Packet.fits (p : Packet) : Bool := p.params.length ≤ 56

/-- Every packet the node has built, wherever it waits or is being sent, has at most 56 parameter octets (R131, R140, R158). -/
abbrev State.PacketsFit (s : State) : Prop :=
  (∀ r ∈ s.engine.replies, Packet.fits r.packet = true) ∧ s.engine.replyCache.all Packet.fits = true ∧
    (∀ c : ClassId, s.events.service[c].all (fun v => Packet.fits v.packet) = true) ∧
    s.events.slot.all (fun x => Packet.fits x.2) = true ∧
    (match s.service.emission with
      | .own _ p sent => Packet.fits p && sent < (Packet.octets p).length
      | _ => true) = true

/-! ### The start of an emitted frame -/

/-- `m` is the node `u` after an emitted frame mark (R33). The watchdog count of EXTERNAL rises, and the mark that finds it at 3
loses the local timing (R85), unless LOCAL_TIMING_LOST took that share (log entry 12). Every retry timer falls by 1 (R163): one
that stood at 0 has expired before, and one that reaches 0 expires at once or is left for RETRY_TIMER_EXPIRY (log entries 11
and 26). -/
abbrev State.Marked (u m : State) : Prop :=
  let timed := u.port.mode = .external ∧ u.port.timingLost = false ∧ u.port.markTaken = false
  let fallen := fun ev : EventUnit => { ev with
    service := Vector.ofFn fun c : ClassId => ev.service[c].map fun v => { v with timer := v.timer.map (· - 1) } }
  let posted := fun ev : EventUnit =>
    if timed ∧ 3 ≤ u.port.watchdog then
      EventUnit.post u.aligner.flywheel.superframe u.engine.address .localTimingLost none none ev
    else ev
  let quiet := fun d : ClassId => ∀ v, u.events.service[d] = some v → v.timer ≠ some 0 ∧ v.timer ≠ some 1
  m = { u with port := m.port, events := m.events } ∧
    (¬timed → m.port = { u.port with markTaken := false }) ∧
    (timed → u.port.watchdog ≤ 2 → m.port = { u.port with watchdog := u.port.watchdog + 1 }) ∧
    (timed → 3 ≤ u.port.watchdog → m.port = { u.port with
      timingLost := true, watchdog := 4, drop := { state := .stopped, frames := [], last := none }
      add := { state := .stopped, frames := [], last := none }, localFrame := none }) ∧
    ((∀ d, quiet d) → m.events = posted (fallen u.events)) ∧
    ∀ (c : ClassId) (v : InService), u.events.service[c] = some v → (∀ d, d ≠ c → quiet d) →
      (v.timer = some 1 → m.events = posted (fallen u.events) ∨
        ∃ x, exec (.retryTimerExpiry c) { u with events := fallen u.events } = .next x ∧ m.events = posted x.events) ∧
      (v.timer = some 0 → c ∈ u.events.order →
        ∃ x, exec (.retryTimerExpiry c) u = .next x ∧ m.events = posted (fallen x.events))

/-- `t` is the node `u` after an emitted frame `e` has begun: the mark is taken (R33), the arbiter gives the segment (R7, R124),
the local frame of FOLLOW ends and starts with it (R73), and the Slot Switch reads one add frame, which INSERT slots carry (R48,
R79). A choice that found no own packet ready and gave no segment of one stays open, until the payload is complete (R124, log
entry 28). -/
abbrev State.FrameBegins (u : State) (e : Emission) (t : State) : Prop :=
  let m := State.mark u
  let g := State.arbitrate m
  let ready := (∃ r ∈ g.after.engine.replies, r.begun = false) ∨ g.after.events.slot ≠ none
  let unfinished := m.port.mode = .follow ∧ ∃ lf, m.port.localFrame = some lf ∧ lf.edges < 768
  let inserts := fun add : LocalSamples =>
    ∀ (x : Slot) (c : Channel), (MapStore.activeBank u.mapStore)[x].action = .insert c → e.frame.payload[x] = add[c]
  State.Marked u m ∧ e.frame.service = g.segment ∧ e.ends = g.ends ∧ t.engine = g.after.engine ∧
    (g.part ≠ .neither ∨ ready → t.service = { g.after.service with openChoice := none }) ∧
    (g.part = .neither → ¬ready → t.service = { g.after.service with openChoice := some u.service.waitCount }) ∧
    ∃ x : State, (unfinished → ∃ add, exec (.localFrameComplete add) g.after = .next x) ∧ (¬unfinished → x = g.after) ∧
      let port := if x.port.mode = .follow then { x.port with startDue := true } else x.port
      (port.add.state ≠ .running → inserts (Vector.replicate 32 u.ringOut.idleWord) ∧ t.port = port ∧
        t.events = x.events ∧ t.counters = x.counters) ∧
      (∀ add later, port.add.state = .running → port.add.frames = add :: later → inserts add ∧
        t.port = { port with add := { state := .running, frames := later, last := some add } } ∧ t.events = x.events ∧
        t.counters = x.counters) ∧
      (∀ add, port.add.state = .running → port.add.frames = [] → port.add.last = some add → inserts add ∧ t.port = port ∧
        t.events = EventUnit.post u.aligner.flywheel.superframe u.engine.address .addSlip none none x.events ∧
        t.counters = x.counters.set CounterName.addSlips.index (raise16 x.counters[CounterName.addSlips.index]))

/-- The arbiter's choice for a frame stays open only while the payload of that frame is not complete (R124, R125, log entry 28). -/
abbrev State.ChoiceSound (s : State) : Prop :=
  s.resetN = true → s.service.openChoice ≠ none → RingOut.payloadOpen s.ringOut = true

/-- `u` is the node `s` with the arbiter's open choice, if any, settled: the wait count is as that choice left it or, where an own
packet is ready, counts the frame of that choice (R124, R125; the free value of log entry 28). -/
abbrev State.Settled (s u : State) : Prop :=
  let ready := (∃ r ∈ s.engine.replies, r.begun = false) ∨ s.events.slot ≠ none
  ∃ waited : Nat,
    (waited = s.service.waitCount ∨ ready ∧ ∃ n, s.service.openChoice = some n ∧ waited = min 65 (n + 1)) ∧
    u = { s with service := { s.service with waitCount := waited, openChoice := none } }

/-! ### A good frame in ALIGNED -/

/-- A frame that the aligner classifies good: the sync word, a correct check and the successor of the flywheel pair (R19). -/
abbrev State.TakesAsGood (s : State) (f : Frame) : Prop :=
  s.resetN = true ∧ s.aligner.align = .aligned ∧ f.sync = 0x9C7#12 ∧ f.check = checkOf (Frame.covered f) ∧
    f.number = successor s.aligner.flywheel

/-- The position after a good frame: a hop of 0..61 under UF 0 teaches it (R26). -/
abbrev State.positionTaught (s : State) (f : Frame) : Option (BitVec 6) :=
  if f.uf = false ∧ f.hop.toNat ≤ 61 then some (f.hop + 1#6) else s.aligner.position

/-- `ev` is the Event Unit after what a good frame teaches: UPSTREAM_FAULT as the last UF rises and UPSTREAM_CLEAR as it falls
(R27), and POSITION_CHANGED with a new position (R26). Where the last two come together, either comes first (the free value of
log entry 6). -/
abbrev State.Taught (s : State) (f : Frame) (ev : EventUnit) : Prop :=
  let post := fun (k : EventKind) (v : Option Sample) e => EventUnit.post f.number.superframe s.engine.address k none v e
  let cleared := fun e => if s.aligner.lastUf then post .upstreamClear none e else e
  let moved := fun e =>
    if f.hop.toNat ≤ 61 ∧ s.aligner.position ≠ some (f.hop + 1#6) then
      post .positionChanged (some (0#18 ++ (f.hop + 1#6))) e
    else e
  (f.uf = true → ev = if s.aligner.lastUf then s.events else post .upstreamFault none s.events) ∧
    (f.uf = false → ev = moved (cleared s.events) ∨ ev = cleared (moved s.events))

/-- A frame at which the Map Store and the Watch Unit do nothing: it has UF 1, or no watch is enabled and no pending switch is
tested (R62, R93). -/
abbrev State.PassesQuietly (s : State) (f : Frame) : Prop :=
  f.uf = true ∨ ((∀ i : WatchId, s.watches[i].setup.enabled = false) ∧
    ∀ target, s.mapStore.shadow = .pending target → f.number.index ≠ 0#4)

/-! ### A request that is taken and answered as it arrives -/

/-- The reply cache holds no reply of a sequence (R137). -/
def Engine.cacheMisses (e : Engine) (sequence : Octet) : Bool := e.replyCache.all fun p => p.sequence ≠ sequence

/-- A delivered addressed request is taken in the event in which it arrives and goes on to validation: the node consumes it in
its form, the request queue is empty, no reset is pending, a reply entry is free and the reply cache does not hold its
sequence (R114, R133, R136, R137). -/
abbrev State.AddressedReady (s : State) (d : Delivery) : Prop :=
  s.resetN = true ∧ d.form ≠ .broadcast ∧ (State.consumedAs s d.form).isSome = true ∧ s.engine.requests = [] ∧
    s.engine.resetPending = none ∧ s.engine.replies.length < 4 ∧ Engine.cacheMisses s.engine d.sequence = true

/-- A delivered broadcast request is taken in the event in which it arrives and goes on to validation (R133, R136, R137). -/
abbrev State.BroadcastReady (s : State) (d : Delivery) : Prop :=
  s.resetN = true ∧ d.form = .broadcast ∧ s.engine.requests = [] ∧ s.engine.resetPending = none ∧
    s.engine.broadcastCache ≠ some d.sequence

/-- The reply that R140 asks for: `t` is the state after the execution, from which R132 takes the source. -/
def replyPacket (t : State) (d : Delivery) (op : Operation) (code : ReplyCode) (contents : List Octet) : Packet :=
  { destination := d.source &&& 0x7F#8
    source := match t.engine.address with
      | some a => stationOfAddress a
      | none => stationOfPosition (t.aligner.position.getD 63#6)
    kind := 0x02#8, sequence := d.sequence, operation := Operation.number op
    params := ReplyCode.octet code :: contents }

/-- The node after an addressed request was taken and answered: `u` is the node with what the operation changed at its owner.
The reply stands at the end of the reply queue and in the reply cache, and the Event Unit has been told of the taking (R136,
R140, R142, R167). -/
def State.answered (u : State) (d : Delivery) (op : Operation) (code : ReplyCode) (contents : List Octet)
    (isReset : Bool) : State :=
  { u with
    engine := { u.engine with
      replies := (u.engine.replies.map fun q => { q with ofCache := false }) ++
        [{ packet := replyPacket u d op code contents, begun := false, isReset := isReset, ofCache := true }]
      replyCache := some (replyPacket u d op code contents) }
    events := EventUnit.requestTaken u.engine.address u.events }

/-- The node after a broadcast request was taken: its number is used up, its sequence stands in the broadcast cache, and the
Event Unit has been told of the taking (R136, R143, R167). -/
def State.tookBroadcast (u : State) (d : Delivery) : State :=
  { u with
    service := { u.service with nextRequest := u.service.nextRequest + 1 }
    engine := { u.engine with broadcastCache := some d.sequence }
    events := EventUnit.requestTaken u.engine.address u.events }

/-- The command that delivers a request of an operation with given parameter octets, where a row of the table does. -/
def requestCommand (op : Operation) (d : Delivery) (params : List Octet) : Option Instr :=
  match op with
  | .identify => some (.identify d params)
  | .assignAddress => some (.assignAddress d params)
  | .readStatus => some (.readStatus d params)
  | .writeNodeSetup => some (.writeNodeSetup d params)
  | .writeMap => some (.writeMap d params)
  | .readMap => some (.readMap d params)
  | .copyActive => some (.copyActive d params)
  | .checkMap => some (.checkMap d params)
  | .scheduleSwitch => some (.scheduleSwitch d params)
  | .cancelSwitch => some (.cancelSwitch d params)
  | .writeWatch => some (.writeWatch d params)
  | .readWatch => some (.readWatch d params)
  | .writeEventSetup => some (.writeEventSetup d params)
  | .readClass => some (.readClass d params)
  | .discardClass => some (.discardClass d params)
  | .readCounters =>
    match params with
    | [o] => some (if o.getLsbD 0 then .readCountersClear d (o.extractLsb' 1 7) else .readCounters d (o.extractLsb' 1 7))
    | _ => none
  | .resetNode =>
    match params with
    | [o] => if o = 0#8 then some (.resetNodeCold d) else if o = 1#8 then some (.resetNodeWarm d) else none
    | _ => none

/-- `c` is the command that delivers a request of operation `op` with these parameter octets, of which there are at most 56
(R116, R131): a row of the operation, or one of the five rows that set one setting (R146). -/
abbrev deliversRequest (c : Instr) (d : Delivery) (op : Operation) (params : List Octet) : Prop :=
  params.length ≤ 56 ∧
    (requestCommand op d params = some c ∨
      (op = .writeNodeSetup ∧
        ((∃ w : Sample, c = .setIdleWord d w ∧ params = [0x01#8] ++ octets24 w ++ [0#8, 0#8, 0#8, 0#8, 0#8]) ∨
          (∃ n : BitVec 16, c = .setQualityThreshold d n ∧
            params = [0x02#8, 0#8, 0#8, 0#8] ++ octets16 n ++ [0#8, 0#8, 0#8]) ∨
          (∃ o, c = .setForcedRehunt d o ∧ params = [0x04#8, 0#8, 0#8, 0#8, 0#8, 0#8, o, 0#8, 0#8]) ∨
          (∃ o, c = .setLocalMode d o ∧ params = [0x08#8, 0#8, 0#8, 0#8, 0#8, 0#8, 0#8, o, 0#8]) ∨
          (∃ o, c = .setRetryTime d o ∧ params = [0x10#8, 0#8, 0#8, 0#8, 0#8, 0#8, 0#8, 0#8, o]))))

/-- The node consumes an addressed request by this destination octet: its address, or its position (R114). -/
abbrev State.consumesAt (s : State) (d : Delivery) (destination : Octet) : Prop :=
  (d.form = .address ∧ ∃ x, s.engine.address = some x ∧ destination = 0#2 ++ x) ∨
    (d.form = .position ∧ ∃ x, s.aligner.position = some x ∧ destination = 1#2 ++ x)

/-- An operation that is executed when broadcast (R133). -/
abbrev Operation.inSubset (op : Operation) : Prop := op = .scheduleSwitch ∨ op = .cancelSwitch ∨ op = .resetNode

/-- A queued broadcast request of a sequence (R134). -/
abbrev Request.broadcastOf (q : Request) (sequence : Octet) : Prop :=
  (∃ n f, q.cls = .broadcast n f) ∧ q.packet.sequence = sequence

/-- The request that a delivery brings by a destination octet, with its class and its arrival facts (R56, R133). -/
def Delivery.request (d : Delivery) (destination : Octet) (cls : RequestClass) (op : Operation) (params : List Octet) :
    Request :=
  { packet := { destination := destination, source := d.source, kind := 0x01#8, sequence := d.sequence
                operation := Operation.number op, params := params }
    cls := cls, superframe := d.superframe, ringTime := d.ringTime }

/-- The node with a request at the end of its request queue (R133). -/
def State.joined (s : State) (r : Request) : State :=
  { s with engine := { s.engine with requests := s.engine.requests ++ [r] } }

/-- The node with one more request number used up (the model's number of log entry 10). -/
def State.numbered (s : State) : State :=
  { s with service := { s.service with nextRequest := s.service.nextRequest + 1 } }

/-! ### Hardware values -/

/-- The aligner's values after a hardware or cold reset (R34). -/
abbrev Aligner.AtHardware (a : Aligner) (carrier : Bool) : Prop :=
  a.align = (if carrier then .hunt else .noSignal) ∧ a.carrier = carrier ∧ a.flywheel = ⟨0#4, 0#16⟩ ∧
    a.consecutiveBad = 0 ∧ a.confirmCount = 0 ∧ a.windowCount = 0 ∧ a.windowReported = false ∧ a.threshold = 0 ∧
    a.forcedRehunt = false ∧ a.position = none ∧ a.lastUf = false ∧ a.underTest = [] ∧ a.keptBits = []

/-- The Map Store's values after a hardware or cold reset (R53). -/
abbrev MapStore.AtHardware (m : MapStore) : Prop :=
  (∀ x : Slot, m.bankA[x] = ⟨.pass, .idle⟩ ∧ m.bankB[x] = ⟨.pass, .idle⟩) ∧ m.active = .a ∧ m.shadow = .editable

/-- The port's values after a hardware or cold reset (R88). -/
abbrev LocalPort.AtHardware (p : LocalPort) : Prop :=
  p.mode = .disabled ∧ p.drop = { state := .stopped, frames := [], last := none } ∧
    p.add = { state := .stopped, frames := [], last := none } ∧ p.timingLost = false ∧ p.watchdog = 0 ∧
    p.localFrame = none ∧ p.startDue = false ∧ p.markTaken = false

/-- A watch's values after a hardware or cold reset (R107). -/
abbrev Watch.AtHardware (w : Watch) : Prop :=
  w.setup = { enabled := false, slot := 0, mode := .activity, sense := .matching, value := 0#24, mask := 0#24, limit := 1
              debounce := 1, consequence := .notify } ∧
    w.status = .active ∧ w.silence = 1 ∧ w.stable = none ∧ w.candidate = none ∧ w.candidateCount = 0

/-- The dynamic state of the Event Unit after any reset (R172, R173). -/
abbrev EventUnit.AtRest (ev : EventUnit) : Prop :=
  ev.free = 64 ∧ (∀ c : ClassId, ev.queues[c] = [] ∧ ev.lost[c] = 0#8 ∧ ev.service[c] = none) ∧
    ev.order = [0, 1, 2, 3, 4, 5, 6, 7] ∧ ev.slot = none ∧ ev.notifier = .quiet ∧ ev.quietWait = [] ∧
    ev.notifySequence = 0#8

/-- The setup of the Event Unit after a hardware or cold reset (R151, R172). -/
abbrev EventUnit.DefaultSetup (ev : EventUnit) : Prop :=
  ev.kinds.toList = ([0, 0, 1, 1, 1, 1, 2, 2, 2, 3, 3, 4, 4, 4, 5, 5, 6, 6, 7, 7, 7] : List ClassId).map (⟨true, ·⟩) ∧
    (∀ c : ClassId, ev.masked[c] = false ∧ ev.autoAck[c] = false) ∧ ev.orderMode = .fixed ∧ ev.retryTime = 48#8

/-- Every block at the values of a hardware or cold reset, with the node address it leaves (R184, R189); the packet in emission
is not among them. -/
abbrev State.AtHardware (s : State) (carrier : Bool) (address : Option (BitVec 6)) : Prop :=
  s.ringOut = { idleWord := 0#24, current := none, copies := [], copyArriving := false, resetPairDue := true } ∧
    Aligner.AtHardware s.aligner carrier ∧ MapStore.AtHardware s.mapStore ∧ (∀ c : Channel, s.lastGood[c] = 0#24) ∧
    LocalPort.AtHardware s.port ∧ (∀ i : WatchId, Watch.AtHardware s.watches[i]) ∧
    (s.service.receiving = .nothing ∧ s.service.transit = [] ∧ s.service.waitCount = 0 ∧ s.service.openChoice = none ∧
      s.service.nextRequest = 0) ∧
    s.engine = { address := address, requests := [], replies := [], replyCache := none, broadcastCache := none
                 resetPending := none } ∧
    EventUnit.AtRest s.events ∧ EventUnit.DefaultSetup s.events ∧ (∀ k : CounterName, s.counters[k.index] = 0#16)

end Sys2Proof.Machine
end

