-- ==== Sys2Proof/Certificates/Slice0/Obligations.lean ====
section
/-! DEFINITION. The statements for the provers: what the rules of spec/ say that the node does. A statement of the form
`exec c s = .next t` gives the whole state after the command, so that its frame is everything the record update does not
name. -/

open Sys2Proof Sys2Proof.Machine

/-! ### The machine, its queue and its resets -/

/-- A step runs the command at the front of the queue with the queue's rest; on an empty queue the block idles (the model's
choice, log entry 3). -/
def Obligations.StepRunsTheFrontCommand : Prop :=
  (∀ (s : State) (c : Instr) (rest : List Instr), s.pending = c :: rest → step s = exec c { s with pending := rest }) ∧
    (∀ s : State, s.pending = [] → step s = .next s)

/-- Every command has an outcome in every state, and none touches the commands that wait (log entry 4). -/
def Obligations.EveryCommandGoesOn : Prop :=
  ∀ (c : Instr) (s : State), ∃ t, exec c s = .next t ∧ t.pending = s.pending

/-- The state after reset is the one in which a release of RESET_N without a carrier leaves a held node, with no command waiting
and no free choice drawn (the model's choice, log entry 2); it has the hardware values. -/
def Obligations.ResetIsARelease : Prop :=
  (∀ s : State, s.resetN = false →
      exec (.hardwareResetRelease false) { s with pending := [], choices := 0 } = .next State.reset) ∧
    State.AtHardware State.reset false none ∧ State.reset.service.emission = .nothing ∧ State.reset.resetN = true

/-- POWER_ON and a rising edge of RESET_N give every block its hardware values, by the carrier found; no event is recorded
(R34, R184, R185). A release without a rising edge changes nothing (log entry 4). -/
def Obligations.HardwareResetValues : Prop :=
  ∀ (s : State) (carrier : Bool),
    (∀ high : Bool, ∃ t, exec (.powerOn high carrier) s = .next t ∧ t.resetN = high ∧ State.AtHardware t carrier none ∧
        t.service.emission = .nothing) ∧
      (s.resetN = false → ∃ t, exec (.hardwareResetRelease carrier) s = .next t ∧ t.resetN = true ∧
        State.AtHardware t carrier none ∧ t.service.emission = .nothing) ∧
      (s.resetN = true → exec (.hardwareResetRelease carrier) s = .next s)

/-- The fall of RESET_N cuts the emitted frame off, abandons the local frame and leaves ring-out without a clock and the local
pins undriven (R11, R184); no event is recorded and no counter moves. While RESET_N is low every command but those of the reset
itself leaves the node as it is: ring-in is ignored and no request is taken. What the blocks hold is replaced at the release. -/
def Obligations.HeldNodeTakesNothing : Prop :=
  ∀ s : State,
    (∃ t, exec .hardwareResetAssert s = .next t ∧
      t = { s with
        resetN := false
        ringOut := { s.ringOut with current := none, copies := [], copyArriving := false }
        port := { s.port with localFrame := none, startDue := false } } ∧
      State.ringOutLine t = .noClock ∧
      State.pins t = { lclk := .notDriven, lfs := .notDriven, ldi := .notDriven, ldo := .notDriven } ∧
      ∀ j : Nat, State.ldoLevel t j = false) ∧
    (s.resetN = false → ∀ c : Instr, (∀ high carrier, c ≠ .powerOn high carrier) →
      (∀ carrier, c ≠ .hardwareResetRelease carrier) → c ≠ .hardwareResetAssert → exec c s = .next s)

/-- An addressed reset takes effect when the frame that carries its reply's END has been emitted in full (R187). A cold one gives
every block its hardware values but for the address (R189); a warm one clears the requests, the replies, both caches, the wait
count, a pending switch and the Event Unit's dynamic state, and keeps all else (R190, R54, R130, R150, R173). -/
def Obligations.AddressedResetTakesEffect : Prop :=
  ∀ (s : State) (e : Emission) (r : Reply) (moment : ResetMoment), s.resetN = true → s.ringOut.current = some e →
    e.ends = .reply → e.payloadDone = true → s.engine.replies.find? (·.begun) = some r → r.isReset = true →
    (s.engine.resetPending = some ⟨.cold, moment⟩ →
      ∃ t, exec .ownPacketComplete s = .next t ∧ t.resetN = true ∧
        State.AtHardware t s.aligner.carrier s.engine.address ∧ (s.service.emission = .nothing → t.service.emission = .nothing)) ∧
    (s.engine.resetPending = some ⟨.warm, moment⟩ →
      ∃ t, exec .ownPacketComplete s = .next t ∧ EventUnit.AtRest t.events ∧
        t = { s with
          ringOut := { s.ringOut with current := none }
          mapStore := { s.mapStore with
            shadow := match s.mapStore.shadow with | .pending _ => .checked | .checked => .checked | .editable => .editable }
          engine := { address := s.engine.address, requests := [], replies := [], replyCache := none, broadcastCache := none
                      resetPending := none }
          events := { t.events with
            kinds := s.events.kinds, masked := s.events.masked, autoAck := s.events.autoAck
            orderMode := s.events.orderMode, retryTime := s.events.retryTime }
          service := { s.service with waitCount := 0, openChoice := none } })

/-- A broadcast reset takes effect at the report that the END of its forwarded copy has been emitted in full, or, where it was
taken later than that, at the first boundary with no packet in emission; a report whose request is still queued sets its
forwarded flag, and a boundary without such a reset ends the frame alone (R144, R188). -/
def Obligations.BroadcastResetTakesEffect : Prop :=
  ∀ (s : State) (e : Emission) (scope : ResetScope) (n : Nat), s.resetN = true → s.ringOut.current = some e →
    e.payloadDone = true →
    (e.ends = .forwarded n → s.engine.resetPending = some ⟨scope, .endForwarded n⟩ →
      exec (.forwardedEndReport n) s = .next (State.resetBy { s with ringOut := { s.ringOut with current := none } } scope)) ∧
    (e.ends = .forwarded n → s.engine.resetPending = none →
      exec (.forwardedEndReport n) s = .next { s with
        ringOut := { s.ringOut with current := none }
        engine := { s.engine with requests := s.engine.requests.map fun r =>
          { r with cls := match r.cls with
            | .broadcast m f => .broadcast m (f || decide (m = n))
            | .addressed => .addressed } } }) ∧
    (e.ends = .nothing → s.engine.resetPending = some ⟨scope, .boundary⟩ → s.service.emission = .nothing →
      exec .emittedFrameBoundary s = .next (State.resetBy { s with ringOut := { s.ringOut with current := none } } scope)) ∧
    (e.ends = .nothing → (∀ p, s.engine.resetPending = some p → p.moment = .boundary → s.service.emission ≠ .nothing) →
      exec .emittedFrameBoundary s = .next { s with ringOut := { s.ringOut with current := none } })

/-! ### Ring-in -/

/-- The carrier goes and returns (R14, R15). SIGNAL_LOST is recorded before ALIGN_LOST, and leaving ALIGNED aborts the packet in
progress on receive (R112, R113) and counts ALIGN_LOSSES and SERVICE_ABORTS; the flywheel, the position and the last UF are
kept, and ring-out goes on. The search after SIGNAL_BACK begins with the first bit that arrives then. -/
def Obligations.CarrierGoesAndReturns : Prop :=
  ∀ s : State, s.resetN = true →
    (s.aligner.align = .hunt ∨ s.aligner.align = .confirm →
      exec .signalLost s = .next { s with
        aligner := { s.aligner with
          align := .noSignal, carrier := false, consecutiveBad := 0, confirmCount := 0, windowCount := 0
          windowReported := false, underTest := [], keptBits := [] }
        events := EventUnit.post s.aligner.flywheel.superframe s.engine.address .signalLost none none s.events }) ∧
    (s.aligner.align = .aligned →
      ∃ t, exec .signalLost s = .next t ∧
        t = { s with
          aligner := { s.aligner with
            align := .noSignal, carrier := false, consecutiveBad := 0, confirmCount := 0, windowCount := 0
            windowReported := false, underTest := [], keptBits := [] }
          ringOut := { s.ringOut with copyArriving := false }
          events := EventUnit.post s.aligner.flywheel.superframe s.engine.address .alignLost none none
            (EventUnit.post s.aligner.flywheel.superframe s.engine.address .signalLost none none s.events)
          service := (State.abortReceive s).service
          counters := t.counters } ∧
        t.service.receiving = .nothing ∧
        ∀ k : CounterName, t.counters[k.index] =
          if k = .alignLosses ∨ (k = .serviceAborts ∧ s.service.receiving ≠ .nothing) then raise16 s.counters[k.index]
          else s.counters[k.index]) ∧
    (s.aligner.align = .noSignal →
      exec .signalBack s = .next { s with
        aligner := { s.aligner with align := .hunt, carrier := true, keptBits := [] }
        events := EventUnit.post s.aligner.flywheel.superframe s.engine.address .signalBack none none s.events })

/-- In HUNT the bits that R18 keeps are searched before new ones: the first candidate frame among them whose check passes is
accepted, and the flywheel is loaded with its pair; the bits behind it stay (R16, R18). Where they hold none, the candidate that
has arrived is accepted if its sync word and check pass and passed over if not. How the sender presents candidates, and that the
load replaces a reset pair still due, are the model's choice (log entries 19 and 29). -/
def Obligations.HuntTakesACandidate : Prop :=
  ∀ (s : State) (f : Frame), s.resetN = true → s.aligner.align = .hunt →
    let passes := fun g : Frame => g.sync = 0x9C7#12 ∧ g.check = checkOf (Frame.covered g)
    let accepted := fun (g : Frame) (behind : List Bool) => { s with
      aligner := { s.aligner with
        align := .confirm, flywheel := g.number, confirmCount := 0, underTest := [g], keptBits := behind }
      ringOut := { s.ringOut with resetPairDue := false } }
    let searched := { s with aligner := { s.aligner with keptBits := [] } }
    (∀ (front : List Bool) (g : Frame) (behind : List Bool), s.aligner.keptBits = front ++ Frame.bits g ++ behind → passes g →
      (∀ (front' : List Bool) (h : Frame) (behind' : List Bool), s.aligner.keptBits = front' ++ Frame.bits h ++ behind' →
        passes h → front.length ≤ front'.length) →
      ∀ candidate, exec (.huntCandidate candidate) s = .next (accepted g behind)) ∧
    ((∀ (front : List Bool) (g : Frame) (behind : List Bool), s.aligner.keptBits = front ++ Frame.bits g ++ behind →
        ¬passes g) →
      (passes f → exec (.huntCandidate (some f)) s = .next (accepted f [])) ∧
      (¬passes f → exec (.huntCandidate (some f)) s = .next searched) ∧
      exec (.huntCandidate none) s = .next searched)

/-- In CONFIRM the frame at the expected position is tested three ways and the flywheel advances whatever the outcome (R17); bits
already received behind the candidate are taken before those that arrive (R18). The first frame that passes raises the confirm
count, the second takes the aligner to ALIGNED and records ALIGN_GAINED. A frame that fails returns the aligner to HUNT with all
bits received kept but the first of the candidate's sync word (R18). That the sender presents again what is kept, and that the
confirm count is 0 in ALIGNED, are the model's choice (log entries 19 and 34). -/
def Obligations.ConfirmTestsAFrame : Prop :=
  ∀ (s : State) (f : Frame), s.resetN = true → s.aligner.align = .confirm →
    let kept := s.aligner.keptBits
    ∃ g : Frame, Frame.bits g = (kept ++ (Frame.bits f).drop kept.length).take 1240 ∧ (kept = [] → g = f) ∧
      (g.sync = 0x9C7#12 ∧ g.check = checkOf (Frame.covered g) ∧ g.number = successor s.aligner.flywheel →
        (s.aligner.confirmCount = 0 → exec (.confirmFrame f) s = .next { s with
          aligner := { s.aligner with
            flywheel := successor s.aligner.flywheel, confirmCount := 1, underTest := s.aligner.underTest ++ [g]
            keptBits := kept.drop 1240 } }) ∧
        (s.aligner.confirmCount = 1 → exec (.confirmFrame f) s = .next { s with
          aligner := { s.aligner with
            align := .aligned, flywheel := successor s.aligner.flywheel, consecutiveBad := 0, confirmCount := 0
            windowCount := 0, windowReported := false, underTest := [], keptBits := [] }
          ringOut := { s.ringOut with copyArriving := !(s.ringOut.current.any (·.substitute)) }
          events := EventUnit.post (successor s.aligner.flywheel).superframe s.engine.address .alignGained none none
            s.events })) ∧
      (¬(g.sync = 0x9C7#12 ∧ g.check = checkOf (Frame.covered g) ∧ g.number = successor s.aligner.flywheel) →
        exec (.confirmFrame f) s = .next { s with
          aligner := { s.aligner with
            align := .hunt, flywheel := successor s.aligner.flywheel, confirmCount := 0, underTest := []
            keptBits := ((s.aligner.underTest ++ [g]).flatMap Frame.bits ++ kept.drop 1240).drop 1 } })

/-- A bad frame in ALIGNED (R19, R20, R23, R24, R110): the flywheel takes its successor, a window that ends there is closed
first, one counter of the first failing test is raised, a packet in progress on receive is aborted and counted, a copy with
EM as R6 gives is due, and QUALITY_LOW is recorded at the threshold. The third consecutive bad frame, or the threshold with
forced re-hunt on, takes the aligner to HUNT with ALIGN_LOST recorded and ALIGN_LOSSES counted once. The arbiter's choice for an
emitted frame in progress is past, and counts no packet that becomes ready here (R125; the free value of log entry 28). Nothing
else changes. -/
def Obligations.BadFrameIsCounted : Prop :=
  ∀ (s : State) (f : Frame), s.resetN = true → s.aligner.align = .aligned →
    let n := successor s.aligner.flywheel
    let closes : Bool := n.index = 0#4 ∧ n.superframe.toNat % 64 = 0
    let counted := (if closes then 0 else s.aligner.windowCount) + 1
    let reported := if closes then false else s.aligner.windowReported
    let low : Bool := s.aligner.threshold ≠ 0 ∧ s.aligner.threshold ≤ counted ∧ reported = false
    let ends : Bool := 3 ≤ s.aligner.consecutiveBad + 1 ∨ (low = true ∧ s.aligner.forcedRehunt = true)
    let failing : CounterName :=
      if f.sync ≠ 0x9C7#12 then .syncErrors
      else if f.check ≠ checkOf (Frame.covered f) then .checkErrors
      else .sequenceErrors
    let lowPosted :=
      if low then EventUnit.post n.superframe s.engine.address .qualityLow none none s.events else s.events
    f.sync ≠ 0x9C7#12 ∨ f.check ≠ checkOf (Frame.covered f) ∨ f.number ≠ n →
    ∃ u t, State.Settled s u ∧ exec (.frameClassified f) s = .next t ∧
      t = { u with
        aligner :=
          if ends then
            { s.aligner with
              align := .hunt, flywheel := n, consecutiveBad := 0, confirmCount := 0, windowCount := 0
              windowReported := false, underTest := [], keptBits := [] }
          else
            { s.aligner with
              flywheel := n, consecutiveBad := s.aligner.consecutiveBad + 1, windowCount := counted
              windowReported := reported || low }
        ringOut := { s.ringOut with
          copies := if s.ringOut.copyArriving then
              s.ringOut.copies ++
                [{ number := n, hop := s.aligner.position.getD 63#6, uf := f.uf
                   em := decide (f.check ≠ checkOf (Frame.covered f)) || f.em, payload := f.payload, sound := false
                   statusBefore := [] }]
            else s.ringOut.copies
          copyArriving := !ends && !(s.ringOut.current.any (·.substitute)) }
        events := if ends then EventUnit.post n.superframe s.engine.address .alignLost none none lowPosted else lowPosted
        service := (State.abortReceive u).service
        counters := t.counters
        choices := s.choices + 1 } ∧
      ∀ k : CounterName, t.counters[k.index] =
        if k = failing ∨ (k = .alignLosses ∧ ends = true) ∨ (k = .serviceAborts ∧ s.service.receiving ≠ .nothing) then
          raise16 s.counters[k.index]
        else s.counters[k.index]

/-- A good frame in ALIGNED that carries an IDLE segment (R19, R22, R23, R26, R27): the flywheel takes its pair, the
consecutive-bad count becomes 0, EM 1 counts MARKED_FRAMES, a hop of 0..61 under UF 0 teaches the position, its UF becomes the
last UF, and its copy is due with the position just learned (R3). The port, the engine, the packets of the service channel and the
last-good samples are as before, and so is the map where the frame has UF 1. What it records is UPSTREAM_FAULT as the last UF
rises, UPSTREAM_CLEAR as it falls, and POSITION_CHANGED with a new position; where the last two come together, their order is free
(the model's choice, log entry 6). The arbiter's choice for an emitted frame in progress is past (R125; the free value of log entry
28). -/
def Obligations.GoodFrameTeaches : Prop :=
  ∀ (s : State) (f : Frame), State.TakesAsGood s f → Segment.read f.service = some (.idle, []) →
    let closes : Bool := f.number.index = 0#4 ∧ f.number.superframe.toNat % 64 = 0
    let position := State.positionTaught s f
    ∃ u t, State.Settled s u ∧ exec (.frameClassified f) s = .next t ∧
      t = { u with
        aligner := { s.aligner with
          flywheel := f.number, consecutiveBad := 0
          windowCount := if closes then 0 else s.aligner.windowCount
          windowReported := if closes then false else s.aligner.windowReported
          position := position, lastUf := f.uf }
        counters := if f.em then
            s.counters.set CounterName.markedFrames.index (raise16 s.counters[CounterName.markedFrames.index])
          else s.counters
        ringOut := { s.ringOut with
          copies := t.ringOut.copies, copyArriving := !(s.ringOut.current.any (·.substitute)) }
        events := t.events, mapStore := t.mapStore, watches := t.watches, choices := t.choices } ∧
      (s.ringOut.copyArriving = false → t.ringOut.copies = s.ringOut.copies) ∧
      (s.ringOut.copyArriving = true → ∃ before, t.ringOut.copies = s.ringOut.copies ++
        [{ number := f.number, hop := position.getD 63#6, uf := f.uf, em := f.em, payload := f.payload, sound := !f.uf
           statusBefore := before }]) ∧
      (State.PassesQuietly s f → t.mapStore = s.mapStore ∧ t.watches = s.watches ∧ State.Taught s f t.events)

/-- A frame that falls due without a clock is classified with 0 for every bit that is missing (R13). One of which no bit came
fails SYNC. -/
def Obligations.MissingClockEndsTheFrame : Prop :=
  ∀ (s : State) (received : List Bool), s.resetN = true → s.aligner.align = .aligned → received.length < 1240 →
    (∃ t, exec (.frameDueWithoutClock received) s = .next t ∧ t.aligner.flywheel = successor s.aligner.flywheel ∧
      (received = [] →
        t.counters[CounterName.syncErrors.index] = raise16 s.counters[CounterName.syncErrors.index])) ∧
    (∀ f : Frame, Frame.bits f = received ++ List.replicate (1240 - received.length) false →
      exec (.frameDueWithoutClock received) s = exec (.frameClassified f) s)

/-- A pending switch at a good frame with UF 0 that is a superframe start (R62, R63, R64, R66): a target ahead stays pending; one
that is equal swaps and records SWITCH_DONE with the target; one that has passed, or lies half the number range away, swaps
and records SWITCH_LATE with the lateness. A swap moves no entry and leaves the former active bank CHECKED. The frame carries
an IDLE segment, teaches nothing new, and no watch is enabled, so that nothing else is recorded. -/
def Obligations.PendingSwitchFires : Prop :=
  ∀ (s : State) (f : Frame) (target : Superframe), s.resetN = true → s.aligner.align = .aligned →
    f.sync = 0x9C7#12 → f.check = checkOf (Frame.covered f) → f.number = successor s.aligner.flywheel →
    f.number.index = 0#4 → f.uf = false → Segment.read f.service = some (.idle, []) →
    s.aligner.lastUf = false → s.aligner.position = some (f.hop + 1#6) → (∀ i : WatchId, s.watches[i].setup.enabled = false) →
    s.mapStore.shadow = .pending target →
    let swapped := { s.mapStore with
      active := match s.mapStore.active with | .a => BankName.b | .b => BankName.a
      shadow := .checked }
    let post := fun (k : EventKind) (v : BitVec 16) =>
      EventUnit.post f.number.superframe s.engine.address k none (some (0#8 ++ v)) s.events
    (1 ≤ (target - f.number.superframe).toNat ∧ (target - f.number.superframe).toNat ≤ 32767 →
      ∃ t, exec (.frameClassified f) s = .next t ∧ t.mapStore = s.mapStore ∧ t.events = s.events) ∧
    (target = f.number.superframe →
      ∃ t, exec (.frameClassified f) s = .next t ∧ t.mapStore = swapped ∧ t.events = post .switchDone target) ∧
    (32768 ≤ (target - f.number.superframe).toNat →
      ∃ t, exec (.frameClassified f) s = .next t ∧ t.mapStore = swapped ∧
        t.events = post .switchLate (f.number.superframe - target))

/-- The active bank, by letter and by contents, changes only at a superframe start whose frame has valid ring time, or where a
hardware or cold reset takes effect and sets every block to its hardware values (R36, R53, R63): at a power-on or a release, or
at the end of an emitted frame, after which SUBSTITUTE_FRAME_START begins the next. -/
def Obligations.ActiveBankChangesOnlyAtASwapOrReset : Prop :=
  ∀ (c : Instr) (s t : State), exec c s = .next t →
    t.mapStore.active ≠ s.mapStore.active ∨ MapStore.activeBank t.mapStore ≠ MapStore.activeBank s.mapStore →
    (∃ (u : State) (carrier : Bool) (address : Option (BitVec 6)), State.AtHardware u carrier address ∧
      ((t = u ∧ ((∃ high, c = .powerOn high carrier) ∨ c = .hardwareResetRelease carrier ∨ c = .ownPacketComplete ∨
          (∃ n, c = .forwardedEndReport n) ∨ c = .emittedFrameBoundary)) ∨
        (c = .substituteFrameStart ∧ exec .substituteFrameStart u = .next t))) ∨
      ∃ f : Frame, (c = .frameClassified f ∨ ∃ received, c = .frameDueWithoutClock received ∧ Frame.ofBits received = f) ∧
        s.resetN = true ∧ s.aligner.align = .aligned ∧ f.sync = 0x9C7#12 ∧ f.check = checkOf (Frame.covered f) ∧
        f.number = successor s.aligner.flywheel ∧ f.number.index = 0#4 ∧ f.uf = false

/-- A frame with valid ring time that carries an IDLE segment evaluates every enabled watch on its masked sample (R91, R93 to
R99), and a frame without ring time, or a disabled watch, leaves a watch as it was. In ACTIVITY mode a match or a difference is
activity; in CHANGE mode it is the acceptance of a candidate over a stable value. Activity sets the counter to the limit and
the status to ACTIVE; without it a superframe start lowers the counter, and the watch falls SILENT as the counter reaches 0. -/
def Obligations.WatchIsEvaluated : Prop :=
  ∀ (s : State) (f : Frame) (i : WatchId), s.resetN = true → s.aligner.align = .aligned →
    let w := s.watches[i]
    let v := f.payload[w.setup.slot] &&& w.setup.mask
    let good := f.sync = 0x9C7#12 ∧ f.check = checkOf (Frame.covered f) ∧ f.number = successor s.aligner.flywheel
    let seen := if w.candidate = some v then w.candidateCount + 1 else 1
    let settled := decide (w.stable ≠ some v) && decide (w.setup.debounce ≤ seen)
    let activity : Bool := match w.setup.mode with
      | .activity => decide (v = w.setup.value &&& w.setup.mask) == decide (w.setup.sense = .matching)
      | .change => settled && w.stable.isSome
    let moved : Watch := match w.setup.mode with
      | .activity => w
      | .change =>
        if w.stable = some v then { w with candidate := none, candidateCount := 0 }
        else if settled then { w with stable := some v, candidate := none, candidateCount := 0 }
        else { w with candidate := some v, candidateCount := seen }
    (good ∧ Segment.read f.service = some (.idle, []) ∧ f.uf = false → ∃ t, exec (.frameClassified f) s = .next t ∧
      t.watches[i] =
        if w.setup.enabled = false then w
        else if activity then { moved with status := .active, silence := w.setup.limit }
        else if f.number.index = 0#4 ∧ 0 < w.silence then
          { moved with silence := w.silence - 1, status := if w.silence = 1 then .silent else w.status }
        else moved) ∧
    (¬good ∨ (Segment.read f.service = some (.idle, []) ∧ f.uf = true) → ∃ t, exec (.frameClassified f) s = .next t ∧
      t.watches = s.watches)

/-- What the watches record (R98 to R100): with one watch enabled, a map that does not fire and a frame that teaches nothing new,
the events of that watch are all that a frame posts, WATCH_CHANGED with the new masked value before WATCH_RESUMED. -/
def Obligations.WatchEventsAreRecorded : Prop :=
  ∀ (s t : State) (f : Frame) (i : WatchId), s.resetN = true → s.aligner.align = .aligned →
    f.sync = 0x9C7#12 → f.check = checkOf (Frame.covered f) → f.number = successor s.aligner.flywheel → f.uf = false →
    Segment.read f.service = some (.idle, []) → s.aligner.lastUf = false → s.aligner.position = some (f.hop + 1#6) →
    s.mapStore.shadow = .editable → (∀ j : WatchId, s.watches[j].setup.enabled = true ↔ j = i) →
    exec (.frameClassified f) s = .next t →
    let w := s.watches[i]
    let u := t.watches[i]
    let changed : List (EventKind × Option Sample) :=
      if w.stable.isSome ∧ u.stable ≠ w.stable then [(.watchChanged, u.stable)] else []
    let resumed : List (EventKind × Option Sample) :=
      if w.status = .silent ∧ u.status = .active then [(.watchResumed, none)] else []
    let silent : List (EventKind × Option Sample) :=
      if w.status = .active ∧ u.status = .silent then [(.watchSilent, none)] else []
    t.events = (changed ++ resumed ++ silent).foldl
      (fun ev e => EventUnit.post f.number.superframe s.engine.address e.1 (some i) e.2 ev) s.events

/-- The node does not interpret sample words (R8): with no watch enabled, two frames that differ in their payload and their check
alone, both of which pass and complete no request that could enable a watch for the frame itself (an IDLE segment, or UF 1), leave
states that differ in the copies that are due alone. -/
def Obligations.PayloadReachesTheCopyAlone : Prop :=
  ∀ (s : State) (f : Frame) (p : Payload) (k : BitVec 16), s.resetN = true → s.aligner.align = .aligned →
    (∀ i : WatchId, s.watches[i].setup.enabled = false) →
    Segment.read f.service = some (.idle, []) ∨ f.uf = true →
    f.check = checkOf (Frame.covered f) → k = checkOf (Frame.covered { f with payload := p }) →
    ∃ t u, exec (.frameClassified f) s = .next t ∧
      exec (.frameClassified { f with payload := p, check := k }) s = .next u ∧
      u = { t with ringOut := { t.ringOut with copies := u.ringOut.copies } }

/-- What the segment of a good frame of either UF does to the packet in progress and to the transit queue (R110 to R112, R114 to
R117, R119 to R121), where the frame fires no switch and no watch is enabled. A first segment aborts the packet in progress and
is judged by its destination octet, a position against the one that the frame itself has just taught (R26): what is consumed
never enters the transit queue, what is forwarded enters it unchanged, and a broadcast goes to both. A later segment
joins its packet, and an END completes it; a copy past 64 octets is dropped, counted, and a broadcast goes on as forwarded. A
segment that does not fit the queue takes its own packet with it and is counted and recorded. A received ABORT is not counted.
Where one segment overflows copy and queue, whether the copy is counted too is free (the model's choice, log entry 8); the order of
what the frame teaches, and the arbiter's choice that is past, are log entries 6 and 28. -/
def Obligations.SegmentsJoinTheirPacket : Prop :=
  ∀ (s : State) (f : Frame) (octets : List Octet) (queue : List TransitPacket) (p : TransitPacket),
    State.TakesAsGood s f → State.PassesQuietly s f →
    (s.service.receiving = .forward ∨ (∃ a, s.service.receiving = .copyForward a) → s.service.transit = queue ++ [p]) →
    let sf := f.number.superframe
    let value := (octets.getD 0 0#8).extractLsb' 0 6
    let ours := if (octets.getD 0 0#8).getLsbD 6 then State.positionTaught s f = some value else s.engine.address = some value
    let dropped := if p.forwarded = 0 then queue else queue ++ [{ p with mark := .aborted }]
    let left := match s.service.receiving with
      | .nothing => s.service.transit
      | .consume _ => s.service.transit
      | .copyForward _ => dropped
      | .forward => dropped
    let aborts : List CounterName := if s.service.receiving = .nothing then [] else [.serviceAborts]
    let fitsLeft := transitTotal left + octets.length ≤ 256
    let fits := transitTotal s.service.transit + octets.length ≤ 256
    let opened := fun mark => left ++ [({ held := octets, forwarded := 0, mark := mark, request := none } : TransitPacket)]
    let grown := fun mark => queue ++ [{ p with held := p.held ++ octets, mark := mark }]
    ∃ (u t : State) (before : EventUnit), State.Settled s u ∧ State.Taught s f before ∧ exec (.frameClassified f) s = .next t ∧
      let overflowed := EventUnit.post sf s.engine.address .transitOverflow none none before
      let now := fun (r : Receiving) (q : List TransitPacket) => { u.service with receiving := r, transit := q }
      let leaves := fun (c : ServiceChannel) (ev : EventUnit) (counted : List CounterName) =>
        t.service = c ∧ t.events = ev ∧ ∀ k : CounterName, k ≠ .markedFrames →
          t.counters[k.index] = if k ∈ counted then raise16 s.counters[k.index] else s.counters[k.index]
      (Segment.read f.service = some (.idle, []) → leaves u.service before []) ∧
      (Segment.read f.service = some (.abort, []) → leaves (now .nothing left) before []) ∧
      (Segment.read f.service = none → leaves (now .nothing left) before aborts) ∧
      (Segment.read f.service = some (.start, octets) ∨ Segment.read f.service = some (.single, octets) →
        value = 63#6 ∨ ¬ours → ¬fitsLeft → leaves (now .nothing left) overflowed (.transitOverflows :: aborts)) ∧
      (Segment.read f.service = some (.start, octets) →
        (value ≠ 63#6 → ours → leaves (now (.consume octets) left) before aborts) ∧
        (value ≠ 63#6 → ¬ours → fitsLeft → leaves (now .forward (opened .incomplete)) before aborts) ∧
        (value = 63#6 → fitsLeft → leaves (now (.copyForward octets) (opened .incomplete)) before aborts)) ∧
      (Segment.read f.service = some (.single, octets) →
        (value ≠ 63#6 → ours → leaves (now .nothing left) before (.badPackets :: aborts)) ∧
        (value ≠ 63#6 → ¬ours → fitsLeft → leaves (now .nothing (opened .complete)) before aborts) ∧
        (value = 63#6 → fitsLeft → leaves (now .nothing (opened .complete)) before (.badPackets :: aborts))) ∧
      (Segment.read f.service = some (.middle, octets) ∨ Segment.read f.service = some (.ending, octets) →
        (s.service.receiving = .nothing → leaves u.service before []) ∧
        (∀ a, s.service.receiving = .consume a → 64 < a.length + octets.length →
          leaves (now .nothing s.service.transit) before [.badPackets]) ∧
        (s.service.receiving = .forward → ¬fits → leaves (now .nothing dropped) overflowed [.transitOverflows]) ∧
        (∀ a, s.service.receiving = .copyForward a → ¬fits →
          leaves (now .nothing dropped) overflowed [.transitOverflows] ∨
            (64 < a.length + octets.length ∧
              leaves (now .nothing dropped) overflowed [.transitOverflows, .badPackets]))) ∧
      (Segment.read f.service = some (.middle, octets) →
        (∀ a, s.service.receiving = .consume a → a.length + octets.length ≤ 64 →
          leaves (now (.consume (a ++ octets)) s.service.transit) before []) ∧
        (s.service.receiving = .forward → fits → leaves (now .forward (grown p.mark)) before []) ∧
        (∀ a, s.service.receiving = .copyForward a → fits →
          (a.length + octets.length ≤ 64 → leaves (now (.copyForward (a ++ octets)) (grown p.mark)) before []) ∧
          (64 < a.length + octets.length → leaves (now .forward (grown p.mark)) before [.badPackets]))) ∧
      (Segment.read f.service = some (.ending, octets) →
        (s.service.receiving = .forward → fits → leaves (now .nothing (grown .complete)) before []) ∧
        (∀ a, s.service.receiving = .copyForward a → fits → 64 < a.length + octets.length →
          leaves (now .nothing (grown .complete)) before [.badPackets]) ∧
        ∀ a, a.length + octets.length ≤ 64 →
          (s.service.receiving = .consume a →
            (Packet.ofOctets (a ++ octets) = none → leaves (now .nothing s.service.transit) before [.badPackets]) ∧
            (∀ packet, Packet.ofOctets (a ++ octets) = some packet → packet.kind &&& 0x0F#8 ≠ 0x01#8 →
              packet.kind &&& 0x0F#8 ≠ 0x04#8 → leaves (now .nothing s.service.transit) before [])) ∧
          (s.service.receiving = .copyForward a → fits →
            (Packet.ofOctets (a ++ octets) = none → leaves (now .nothing (grown .complete)) before [.badPackets]) ∧
            (∀ packet, Packet.ofOctets (a ++ octets) = some packet →
              (packet.kind &&& 0x0F#8 ≠ 0x01#8 → leaves (now .nothing (grown .complete)) before []) ∧
              (packet.kind &&& 0x0F#8 = 0x01#8 → t.service = { u.service with
                receiving := .nothing, nextRequest := s.service.nextRequest + 1
                transit := queue ++ [{ p with
                  held := p.held ++ octets, mark := .complete, request := some s.service.nextRequest }] }))))

/-- A request that arrives in segments does what the command of its delivery does (R56, R110, R117, R118, R127, R133). The good
frame of either UF that completes a request packet, consumed in address or in position form or received as a broadcast, leaves the
state that the same frame with an IDLE segment leaves after the delivery of the request, with the frame's superframe and valid
ring time under UF 0 as its arrival facts; a broadcast leaves its copy complete in the transit queue besides, under the number of
the request. A request packet of any operation and any length, also one that no row of the table delivers, addressed or a
broadcast of the executed subset, joins the end of the queue where at most three requests stand in it and none is its duplicate,
and is offered for taking. Under UF 0 no request is queued, no watch is enabled and no pending switch is tested, as the order in
which the blocks take a frame is free (log entry 5); the evaluation of a watch that the request itself enables is left out for
that reason. -/
def Obligations.RequestInFramesIsTheCommand : Prop :=
  ∀ (s : State) (f g : Frame) (a octets : List Octet),
    State.TakesAsGood s f → State.PassesQuietly s f → (f.uf = false → s.engine.requests = []) →
    g = { f with service := ⟨0#8, 0#8, 0#8, 0#8⟩, check := g.check } → g.check = checkOf (Frame.covered g) →
    Segment.read f.service = some (.ending, octets) →
    let received := fun u : State => { u with service := { u.service with receiving := .nothing } }
    let copied := fun (v : State) (queue : List TransitPacket) (q : TransitPacket) => { v with service := { v.service with
      transit := queue ++ [{ q with
        held := q.held ++ octets, mark := .complete, request := some s.service.nextRequest }] } }
    (∀ (params : List Octet) (op : Operation) (form : DestinationForm) (destination source sequence : Octet) (c : Instr),
      params.length ≤ 56 →
      requestCommand op { form := form, source := source, sequence := sequence, superframe := f.number.superframe
                          ringTime := !f.uf } params = some c →
      a ++ octets = Packet.octets { destination := destination, source := source, kind := 0x01#8, sequence := sequence
                                    operation := Operation.number op, params := params } →
      let agree := fun t v : State =>
        (f.uf = true ∨ op ≠ .writeWatch → t = v) ∧
          ((∀ i : WatchId, t.watches[i].setup = v.watches[i].setup) ∧
            t = { v with
              watches := t.watches, events := t.events, ringOut := { v.ringOut with copies := t.ringOut.copies } })
      let addressed := (form = .address ∧ ∃ x, s.engine.address = some x ∧ destination = 0#2 ++ x) ∨
        (form = .position ∧ ∃ x, State.positionTaught s f = some x ∧ destination = 1#2 ++ x)
      (s.service.receiving = .consume a → addressed →
        ∃ t u v, exec (.frameClassified f) s = .next t ∧ exec (.frameClassified g) s = .next u ∧
          exec c (received u) = .next v ∧ agree t v) ∧
      (∀ queue q, s.service.receiving = .copyForward a → s.service.transit = queue ++ [q] → form = .broadcast →
        destination = 0x3F#8 → transitTotal s.service.transit + octets.length ≤ 256 →
        ∃ t u v, exec (.frameClassified f) s = .next t ∧ exec (.frameClassified g) s = .next u ∧
          exec c (received u) = .next v ∧ agree t (copied v queue q))) ∧
    (∀ p : Packet, p.params.length ≤ 56 → p.kind &&& 0x0F#8 = 0x01#8 → a ++ octets = Packet.octets p →
      s.engine.requests.length ≤ 3 →
      let request := fun cls =>
        ({ packet := p, cls := cls, superframe := f.number.superframe, ringTime := !f.uf } : Request)
      (s.service.receiving = .consume a → f.uf = true ∨ p.operation ≠ 0x0B#8 →
        (∀ r ∈ s.engine.requests, r.cls = .addressed → r.packet.sequence ≠ p.sequence) →
        ∃ t u, exec (.frameClassified f) s = .next t ∧ exec (.frameClassified g) s = .next u ∧
          exec .takeRequest (State.joined (received u) (request .addressed)) = .next t) ∧
      (∀ queue q, s.service.receiving = .copyForward a → s.service.transit = queue ++ [q] →
        transitTotal s.service.transit + octets.length ≤ 256 →
        p.operation = 0x09#8 ∨ p.operation = 0x0A#8 ∨ p.operation = 0x11#8 →
        (∀ r ∈ s.engine.requests, ¬Request.broadcastOf r p.sequence) →
        ∃ t u v, exec (.frameClassified f) s = .next t ∧ exec (.frameClassified g) s = .next u ∧
          exec .takeRequest (State.joined (State.numbered (received u)) (request (.broadcast s.service.nextRequest false))) =
            .next v ∧ t = copied v queue q))

/-- An ACK that completes in a good frame of either UF (R110, R118, R162, R167), where the frame fires no switch and no watch is
enabled. One that names a class in service with its sequence frees the carried records, takes the snapshot off the lost count, ends
the service, withdraws a packet of the class from the slot, cancels the change to QUIET that waits for the class (R166) and, as the
model's choice, no other (log entry 36), and in ROTATE moves the class to the end of the order (R156). One that matches no class
does none of that. Either makes a QUIET notifier ACTIVE at a node with an address, and the test of R157 follows. It is taken after
what the frame itself teaches (R26 to R28; the order of that is log entry 6); the arbiter's choice that is past is log entry 28. -/
def Obligations.AckFreesTheCarriedRecords : Prop :=
  ∀ (s : State) (f : Frame) (a octets : List Octet) (p : Packet), State.TakesAsGood s f → State.PassesQuietly s f →
    Segment.read f.service = some (.ending, octets) →
    s.service.receiving = .consume a → a ++ octets = Packet.octets p →
    p.params.length ≤ 56 → p.kind &&& 0x0F#8 = 0x04#8 →
    let woken := fun ev : EventUnit => { ev with
      notifier := if s.engine.address = none then ev.notifier else .active }
    ∃ (u t : State) (ev : EventUnit), State.Settled s u ∧ State.Taught s f ev ∧ exec (.frameClassified f) s = .next t ∧
      t.service = { u.service with receiving := .nothing } ∧ t.engine = s.engine ∧
      t.events.notifier = (if s.engine.address = none then ev.notifier else .active) ∧
      ((∀ (c : ClassId) (v : InService), p.operation = BitVec.ofNat 8 c.val → ev.service[c] = some v →
          v.packet.sequence ≠ p.sequence) →
        t.events = EventUnit.test s.engine.address (woken ev)) ∧
      ∀ (c : ClassId) (v : InService), p.operation = BitVec.ofNat 8 c.val → ev.service[c] = some v →
        v.packet.sequence = p.sequence →
        t.events = EventUnit.test s.engine.address (woken { ev with
          queues := ev.queues.set c (ev.queues[c].drop v.carried)
          free := ev.free + (ev.queues[c].take v.carried).length
          lost := ev.lost.set c (ev.lost[c] - v.snapshot)
          service := ev.service.set c none
          slot := if ev.slot.any (fun x => x.1 = c) then none else ev.slot
          quietWait := ev.quietWait.filter (· ≠ c)
          order := match ev.orderMode with
            | .fixed => ev.order
            | .rotate => ev.order.filter (· ≠ c) ++ [c] }) ∧
        t.events.queues = ev.queues.set c (ev.queues[c].drop v.carried) ∧
        t.events.lost = ev.lost.set c (ev.lost[c] - v.snapshot) ∧
        ∀ w, t.events.service[c] = some w → w.packet.sequence = ev.notifySequence ∧ w.retries = 0 ∧ w.timer = none

/-! ### Ring-out -/

/-- A substitute frame begins where the aligner is not ALIGNED, no frame is in emission and no forwarded copy is due (R10, R22,
R32, R48). It carries 9C7h, the flywheel's pair (stepped in HUNT and NO_SIGNAL, but not for the first frame after a reset), the
position or 63, UF 1, EM 0, the arbiter's segment, and a correct check; INSERT slots carry the add frame, idle words where the
Add Store is not RUNNING, and all others the idle word. The emitted frame mark is taken (R33). A frame still in progress ends
first. That the flywheel steps before the mark, and holds a loaded pair in CONFIRM, is the model's choice (log entries 30, 31), as
is the order within the mark (log entries 11, 12, 26, 28). -/
def Obligations.SubstituteFrameIsBuilt : Prop :=
  (∀ s : State, s.resetN = true → s.aligner.align ≠ .aligned → s.ringOut.current = none → s.ringOut.copies = [] →
    (∀ p, s.engine.resetPending = some p → p.moment = .boundary → s.service.emission ≠ .nothing) →
    let pair :=
      if s.aligner.align ≠ .confirm ∧ s.ringOut.resetPairDue = false then successor s.aligner.flywheel else s.aligner.flywheel
    ∃ t e, exec .substituteFrameStart s = .next t ∧ t.ringOut.current = some e ∧
      t = { s with
        aligner := { s.aligner with flywheel := pair }
        ringOut := { s.ringOut with current := some e, resetPairDue := false }
        lastGood := t.lastGood, port := t.port, service := t.service
        engine := { s.engine with replies := t.engine.replies }
        events := t.events, counters := t.counters, choices := t.choices } ∧
      e.substitute = true ∧ e.payloadDone = false ∧
      e.frame.sync = 0x9C7#12 ∧ e.frame.number = pair ∧ e.frame.hop = s.aligner.position.getD 63#6 ∧ e.frame.uf = true ∧
      e.frame.em = false ∧ e.frame.check = checkOf (Frame.covered e.frame) ∧
      State.FrameBegins { s with
        aligner := { s.aligner with flywheel := pair }, ringOut := { s.ringOut with resetPairDue := false } } e t ∧
      (∀ x : Slot, (∀ c, (MapStore.activeBank s.mapStore)[x].action ≠ .insert c) → e.frame.payload[x] = s.ringOut.idleWord) ∧
      (s.port.mode ≠ .follow → s.port.add.state ≠ .running → ∀ x : Slot, e.frame.payload[x] = s.ringOut.idleWord) ∧
      (∀ (x : Slot) (c : Channel) add later, s.port.mode = .external → s.port.watchdog < 3 → s.port.add.state = .running →
        s.port.add.frames = add :: later → (MapStore.activeBank s.mapStore)[x].action = .insert c →
        e.frame.payload[x] = add[c] ∧ t.port.add = { state := .running, frames := later, last := some add }) ∧
      (s.port.mode ≠ .external → s.service.emission = .nothing → s.service.transit = [] → s.engine.replies = [] →
        s.events.slot = none →
        (∀ c : ClassId, s.events.service[c] = none) →
        e.frame.service = { control := 0#8, data1 := 0#8, data2 := 0#8, data3 := 0#8 } ∧ e.ends = .nothing)) ∧
    ∀ s u : State, s.resetN = true → exec .emittedFrameBoundary s = .next u → u.aligner.align ≠ .aligned →
      u.ringOut.copies = [] → exec .substituteFrameStart s = exec .substituteFrameStart u

/-- A forwarded frame begins as the copy of the oldest received frame that is due (R3, R4, R6, R9, R48): the header as the copy
has it, the arbiter's segment, a correct check, and slot for slot the received word under PASS and TAP, the idle word under
TERMINATE and MUTE, and under INSERT the sample of the frame at the front of the RUNNING Add Store (R79). The emitted frame mark
is taken (R33); the order within it is the model's choice (log entries 11, 12, 26, 28). -/
def Obligations.ForwardedFrameIsBuilt : Prop :=
  ∀ (s : State) (c : Copy) (rest : List Copy), s.resetN = true → s.ringOut.current = none → s.ringOut.copies = c :: rest →
    (∀ p, s.engine.resetPending = some p → p.moment = .boundary → s.service.emission ≠ .nothing) →
    ∃ t e, exec .forwardedFrameStart s = .next t ∧ t.ringOut.current = some e ∧
      t = { s with
        ringOut := { s.ringOut with current := some e, copies := rest }
        lastGood := t.lastGood, port := t.port, service := t.service
        engine := { s.engine with replies := t.engine.replies }
        events := t.events, counters := t.counters, choices := t.choices } ∧
      e.substitute = false ∧ e.payloadDone = false ∧
      e.frame.sync = 0x9C7#12 ∧ e.frame.number = c.number ∧ e.frame.hop = c.hop ∧ e.frame.uf = c.uf ∧ e.frame.em = c.em ∧
      e.frame.check = checkOf (Frame.covered e.frame) ∧
      State.FrameBegins { s with ringOut := { s.ringOut with copies := rest } } e t ∧
      (∀ x : Slot, match (MapStore.activeBank s.mapStore)[x].action with
        | .pass => e.frame.payload[x] = c.payload[x]
        | .tap _ => e.frame.payload[x] = c.payload[x]
        | .terminate _ => e.frame.payload[x] = s.ringOut.idleWord
        | .mute => e.frame.payload[x] = s.ringOut.idleWord
        | .insert ch =>
          (∀ add later, s.port.mode = .external → s.port.watchdog < 3 → s.port.add.state = .running →
            s.port.add.frames = add :: later →
            e.frame.payload[x] = add[ch] ∧ t.port.add = { state := .running, frames := later, last := some add }) ∧
          (∀ add, s.port.mode = .external → s.port.watchdog < 3 → s.port.add.state = .running → s.port.add.frames = [] →
            s.port.add.last = some add → e.frame.payload[x] = add[ch] ∧ t.port.add = s.port.add ∧
            t.counters[CounterName.addSlips.index] = raise16 s.counters[CounterName.addSlips.index]))

/-- What an emitted frame delivers (R46 to R51, R101): a channel named by the drop entry of one slot of the active bank takes that
slot's received word where the frame is sound and no enabled SILENT watch of the slot has consequence SUBSTITUTE, and that word
becomes its last-good sample; otherwise, and so in every substitute frame, it takes the entry's substitution and keeps its
last-good sample. A channel that no drop entry names takes the idle word. The statuses are those at the start of the frame; a watch
whose status the evaluation of the frame itself has changed counts for the whole frame with its former or with its present one (the
free value of log entry 7; a later WRITE_WATCH is seen by the next frame, log entry 35). -/
def Obligations.DropFrameIsFormed : Prop :=
  ∀ s : State, s.resetN = true → s.ringOut.current = none → s.engine.resetPending = none →
    let bank := MapStore.activeBank s.mapStore
    let drops := fun (ch : Channel) (x : Slot) => bank[x].action = .tap ch ∨ bank[x].action = .terminate ch
    let silenced := fun (taken : WatchId → WatchStatus) (x : Slot) => ∃ i : WatchId, s.watches[i].setup.enabled = true ∧
      s.watches[i].setup.slot = x ∧ s.watches[i].setup.consequence = .substitute ∧ taken i = .silent
    let substituted := fun (ch : Channel) (x : Slot) => match bank[x].substitution with
      | .hold => s.lastGood[ch]
      | .idle => s.ringOut.idleWord
      | .zero => 0#24
    (∀ (c : Copy) (rest : List Copy), s.ringOut.copies = c :: rest →
      ∃ (t : State) (e : Emission) (taken : WatchId → WatchStatus),
        exec .forwardedFrameStart s = .next t ∧ t.ringOut.current = some e ∧
        (∀ i : WatchId, taken i = s.watches[i].status ∨ (i, taken i) ∈ c.statusBefore) ∧
        ∀ ch : Channel,
          ((∀ x, ¬drops ch x) → e.drop[ch] = s.ringOut.idleWord ∧ t.lastGood[ch] = s.lastGood[ch]) ∧
          ∀ x, drops ch x → (∀ y, drops ch y → y = x) →
            (c.sound = true ∧ ¬silenced taken x → e.drop[ch] = c.payload[x] ∧ t.lastGood[ch] = c.payload[x]) ∧
            (c.sound = false ∨ silenced taken x → t.lastGood[ch] = s.lastGood[ch] ∧ e.drop[ch] = substituted ch x)) ∧
    (s.aligner.align ≠ .aligned → s.ringOut.copies = [] →
      ∃ t e, exec .substituteFrameStart s = .next t ∧ t.ringOut.current = some e ∧ t.lastGood = s.lastGood ∧
        ∀ ch : Channel, ((∀ x, ¬drops ch x) → e.drop[ch] = s.ringOut.idleWord) ∧
          ∀ x, drops ch x → (∀ y, drops ch y → y = x) → e.drop[ch] = substituted ch x)

/-- The drop frame is written to the Drop Store as the payload of the emitted frame is complete, once (R51, R76, R80, R82):
discarded in STOPPED, joined to the list in PRIMING and in RUNNING with room, with RUNNING reached at two frames; at four the
oldest frame goes, DROP_SLIPS is counted and DROP_SLIP recorded. By then the arbiter's choice for the frame is past: an own packet
that is ready now became ready at the moment of that choice, and the frame counts in the wait count, or after it (R124, R125; the
free value of log entry 28), and what becomes ready later does not count it. -/
def Obligations.PayloadCompleteWritesTheDropFrame : Prop :=
  ∀ (s : State) (e : Emission), s.resetN = true → s.ringOut.current = some e → s.port.startDue = false →
    (e.payloadDone = true → exec .payloadComplete s = .next s) ∧
    (e.payloadDone = false → ∃ u, State.Settled s u ∧
      let done := { u with ringOut := { s.ringOut with current := some { e with payloadDone := true } } }
      let written := fun st : Store => { done with port := { s.port with drop := st } }
      (s.port.drop.state = .stopped → exec .payloadComplete s = .next done) ∧
      (s.port.drop.state = .priming → s.port.drop.frames = [] →
        exec .payloadComplete s = .next (written { s.port.drop with frames := [e.drop] })) ∧
      (∀ f, s.port.drop.state = .priming → s.port.drop.frames = [f] →
        exec .payloadComplete s = .next (written { s.port.drop with state := .running, frames := [f, e.drop] })) ∧
      (s.port.drop.state = .running → s.port.drop.frames.length ≤ 3 →
        exec .payloadComplete s = .next (written { s.port.drop with frames := s.port.drop.frames ++ [e.drop] })) ∧
      (s.port.drop.state = .running → s.port.drop.frames.length = 4 →
        exec .payloadComplete s = .next
          { written { s.port.drop with frames := s.port.drop.frames.drop 1 ++ [e.drop] } with
            counters := s.counters.set CounterName.dropSlips.index (raise16 s.counters[CounterName.dropSlips.index])
            events := EventUnit.post s.aligner.flywheel.superframe s.engine.address .dropSlip none none s.events }))

/-- The frame that carries an own packet's END has been emitted in full (R127). A reply leaves the reply queue, and the engine
tests its taking condition again (R136, R141): one request is taken as by TAKE_REQUEST (further ones are commands of their own,
log entry 18), and a broadcast reset that this taking leaves waiting for the boundary takes effect at it (R144, log entry 16). For
a notification still in service with its sequence, the retry timer is loaded with 16 times the retry time (R160, R163), or, under
auto-ack, the carried records are freed (R161). A change to QUIET that waits for this report is made once the report has been
acted on (R166): what auto-ack frees is freed, and then every class is released, the slot is emptied and NOTIFIER_QUIET is
recorded. That the test of R157 follows the change alone, and that an acknowledgement cancels the change of its own class only,
are the model's choice (log entries 37 and 36). -/
def Obligations.OwnPacketIsReported : Prop :=
  ∀ (s : State) (e : Emission), s.resetN = true → s.ringOut.current = some e → e.payloadDone = true →
    s.engine.resetPending = none →
    let ended := fun ev : EventUnit => { s with ringOut := { s.ringOut with current := none }, events := ev }
    let quieted := fun ev : EventUnit => EventUnit.record
      { ev with service := Vector.replicate 8 none, slot := none, notifier := .quiet, quietWait := [] }
      s.aligner.flywheel.superframe .notifierQuiet none none
    let freed := fun (c : ClassId) (v : InService) => { s.events with
      queues := s.events.queues.set c (s.events.queues[c].drop v.carried)
      free := s.events.free + (s.events.queues[c].take v.carried).length
      lost := s.events.lost.set c (s.events.lost[c] - v.snapshot)
      order := match s.events.orderMode with
        | .fixed => s.events.order
        | .rotate => s.events.order.filter (· ≠ c) ++ [c] }
    (∀ r rest, e.ends = .reply → s.engine.replies = r :: rest → r.begun = true →
      let removed := { s with
        ringOut := { s.ringOut with current := none }
        engine := { s.engine with replies := rest } }
      (s.engine.requests = [] → exec .ownPacketComplete s = .next removed) ∧
      ∃ v, exec .takeRequest removed = .next v ∧ exec .ownPacketComplete s = exec .emittedFrameBoundary v ∧
        ((∀ p, v.engine.resetPending = some p → p.moment = .boundary → v.service.emission ≠ .nothing) →
          exec .ownPacketComplete s = .next v)) ∧
    (∀ c sequence v, e.ends = .notification c sequence → s.events.service[c] = some v → v.packet.sequence = sequence →
      (s.events.autoAck[c] = false → s.events.quietWait = [] →
        exec .ownPacketComplete s = .next (ended (EventUnit.test s.engine.address { s.events with
          service := s.events.service.set c (some { v with timer := some (16 * s.events.retryTime.toNat) }) }))) ∧
      (s.events.autoAck[c] = false → s.events.quietWait ≠ [] →
        exec .ownPacketComplete s = .next (ended (quieted s.events))) ∧
      (s.events.autoAck[c] = true → (∀ d ∈ s.events.quietWait, d = c) →
        exec .ownPacketComplete s = .next (ended (EventUnit.test s.engine.address { freed c v with
          service := s.events.service.set c none
          slot := if s.events.slot.any (fun x => x.1 = c) then none else s.events.slot
          quietWait := [] }))) ∧
      (s.events.autoAck[c] = true → (∃ d ∈ s.events.quietWait, d ≠ c) →
        exec .ownPacketComplete s = .next (ended (quieted (freed c v))))) ∧
    (∀ c sequence, e.ends = .notification c sequence →
      (∀ v, s.events.service[c] = some v → v.packet.sequence ≠ sequence) →
      (s.events.quietWait = [] →
        exec .ownPacketComplete s = .next (ended (EventUnit.test s.engine.address s.events))) ∧
      (s.events.quietWait ≠ [] → exec .ownPacketComplete s = .next (ended (quieted s.events))))

/-- The arbiter's segment by the first case that applies (R121 to R124, R126, R160): a packet in emission goes on and is not
interrupted; an own packet begins past a wait count of 64, or where the transit queue is empty, the oldest ready reply before the
notification in the slot; the transit head otherwise; and IDLE where there is nothing. A transit packet gives up to 3 of its held
octets, in a SINGLE, START, MIDDLE or END by whether its first and its last octet are among them, an ABORT once an aborted packet
has none left, and an IDLE while an incomplete one has none. The wait count changes as R125 says. -/
def Obligations.ArbiterChoosesTheSegment : Prop :=
  ∀ s : State,
    let given := State.arbitrate s
    let after := given.after.service
    let ready := (∃ r ∈ s.engine.replies, r.begun = false) ∨ s.events.slot ≠ none
    (∀ o p sent, s.service.emission = .own o p sent → sent + 3 < (Packet.octets p).length →
      given.segment = Segment.build (if sent = 0 then .start else .middle) (((Packet.octets p).drop sent).take 3) ∧
      given.ends = .nothing ∧ after.emission = .own o p (sent + 3) ∧ after.transit = s.service.transit ∧
      after.waitCount = if ready then s.service.waitCount else 0) ∧
    (∀ o p sent, s.service.emission = .own o p sent → (Packet.octets p).length ≤ sent + 3 →
      given.segment = Segment.build .ending ((Packet.octets p).drop sent) ∧
      given.ends = (match o with | .engine => .reply | .eventUnit c => .notification c p.sequence) ∧
      after.emission = .nothing ∧ after.transit = s.service.transit ∧
      after.waitCount = if ready then s.service.waitCount else 0) ∧
    (∀ p rest, s.service.transit = p :: rest →
      s.service.emission = .transit ∨ (s.service.emission = .nothing ∧ (¬ready ∨ s.service.waitCount ≤ 64)) →
      after.waitCount = (if ready then min 65 (s.service.waitCount + 1) else 0) ∧
      (p.held = [] → p.mark = .incomplete →
        given.segment = idleSegment ∧ given.ends = .nothing ∧ after.emission = .transit ∧ after.transit = p :: rest) ∧
      (p.held = [] → p.mark = .aborted →
        given.segment = Segment.build .abort [] ∧ given.ends = .nothing ∧ after.emission = .nothing ∧ after.transit = rest) ∧
      (p.held ≠ [] → p.mark = .complete → p.held.length ≤ 3 →
        given.segment = Segment.build (if p.forwarded = 0 then .single else .ending) p.held ∧
        given.ends = (match p.request with | some n => .forwarded n | none => .nothing) ∧
        after.emission = .nothing ∧ after.transit = rest) ∧
      (p.held ≠ [] → p.mark ≠ .complete ∨ 3 < p.held.length →
        given.segment = Segment.build (if p.forwarded = 0 then .start else .middle) (p.held.take 3) ∧
        given.ends = .nothing ∧ after.emission = .transit ∧
        after.transit =
          { p with held := p.held.drop 3, forwarded := p.forwarded + min 3 p.held.length } :: rest)) ∧
    (s.service.emission = .abortDue →
      given.segment = Segment.build .abort [] ∧ after.emission = .nothing ∧ after.transit = s.service.transit) ∧
    (s.service.emission = .nothing → s.service.transit = [] ∨ 64 < s.service.waitCount →
      (∀ before r later, s.engine.replies = before ++ r :: later → (∀ q ∈ before, q.begun = true) → r.begun = false →
        given.segment = Segment.build .start ((Packet.octets r.packet).take 3) ∧ given.ends = .nothing ∧
        after.emission = .own .engine r.packet 3 ∧ after.waitCount = 0 ∧ after.transit = s.service.transit ∧
        given.after.engine = { s.engine with replies := before ++ { r with begun := true } :: later } ∧
        given.after.events = s.events) ∧
      (∀ c p, (∀ r ∈ s.engine.replies, r.begun = true) → s.events.slot = some (c, p) →
        given.segment = Segment.build .start ((Packet.octets p).take 3) ∧ given.ends = .nothing ∧
        after.emission = .own (.eventUnit c) p 3 ∧ after.waitCount = 0 ∧ after.transit = s.service.transit ∧
        given.after.engine = s.engine ∧
        given.after.events = EventUnit.test s.engine.address { s.events with slot := none })) ∧
    (s.service.emission = .nothing → s.service.transit = [] → ¬ready →
      given.segment = idleSegment ∧ given.ends = .nothing ∧
      given.after = { s with service := { s.service with waitCount := 0 } })

/-! ### The local port -/

/-- A local frame starts (R73, R77, R85, R86). In FOLLOW it starts with an emitted frame that has begun; in EXTERNAL at any frame
start, which sets the watchdog count to 0 and restores a LOST timing with both stores PRIMING. The Drop Store delivers idle
words in PRIMING, its oldest frame in RUNNING, and its last delivered frame again, with a slip, at fill 0. In DISABLED nothing
starts. In FOLLOW the node drives LCLK through each local frame with LFS 1 in its first period, and holds both at 0 otherwise
(R73, R87, R197). -/
def Obligations.LocalFrameStarts : Prop :=
  ∀ s : State, s.resetN = true →
    let started := fun (p : LocalPort) (drop : Store) (out : LocalSamples) =>
      { s with port := { p with
          drop := drop, localFrame := some { edges := 0, addSoFar := [], out := some out }, startDue := false } }
    let fed := { s.port with watchdog := 0 }
    let primed : Store := { state := .priming, frames := [], last := none }
    let restored := { fed with timingLost := false, add := primed }
    (s.port.mode = .disabled → exec .localFrameStart s = .next s) ∧
    (s.port.mode = .follow → s.port.startDue = false → exec .localFrameStart s = .next s) ∧
    (s.port.mode = .follow → s.port.startDue = true → s.port.drop.state = .priming →
      exec .localFrameStart s = .next (started s.port s.port.drop (Vector.replicate 32 s.ringOut.idleWord))) ∧
    (∀ f rest, s.port.mode = .follow → s.port.startDue = true → s.port.drop.state = .running →
      s.port.drop.frames = f :: rest →
      exec .localFrameStart s = .next (started s.port { s.port.drop with frames := rest, last := some f } f)) ∧
    (s.port.mode = .external → s.port.timingLost = false → s.port.drop.state = .priming →
      exec .localFrameStart s = .next (started fed s.port.drop (Vector.replicate 32 s.ringOut.idleWord))) ∧
    (∀ f rest, s.port.mode = .external → s.port.timingLost = false → s.port.drop.state = .running →
      s.port.drop.frames = f :: rest →
      exec .localFrameStart s = .next (started fed { s.port.drop with frames := rest, last := some f } f)) ∧
    (∀ f, s.port.mode = .external → s.port.timingLost = false → s.port.drop.state = .running → s.port.drop.frames = [] →
      s.port.drop.last = some f →
      exec .localFrameStart s = .next { started fed s.port.drop f with
        counters := s.counters.set CounterName.dropSlips.index (raise16 s.counters[CounterName.dropSlips.index])
        events := EventUnit.post s.aligner.flywheel.superframe s.engine.address .dropSlip none none s.events }) ∧
    (s.port.mode = .external → s.port.timingLost = true →
      exec .localFrameStart s = .next
        { started restored primed (Vector.replicate 32 s.ringOut.idleWord) with
          events := EventUnit.post s.aligner.flywheel.superframe s.engine.address .localTimingBack none none s.events }) ∧
    let underWay := s.port.startDue = true ∨ ∃ lf, s.port.localFrame = some lf ∧ lf.edges < 768
    (s.port.mode = .follow → underWay → State.lclkLevel s = .running ∧ ∀ j, State.lfsLevel s j = some (decide (j = 0))) ∧
    (s.port.mode = .follow → ¬underWay → State.lclkLevel s = .heldLow ∧ ∀ j, State.lfsLevel s j = some false) ∧
    (s.port.mode ≠ .follow → State.lclkLevel s = .notDriven ∧ ∀ j, State.lfsLevel s j = none)

/-- Edge 768 of a complete local frame writes its add frame to the Add Store (R74, R78, R80, R82); where no local frame is in
progress nothing is written. In EXTERNAL the mark that brings the watchdog count to 4 loses the local timing (R85): both stores
are STOPPED and empty with no slip counted, the local frame is abandoned, and LOCAL_TIMING_LOST is recorded; the command is that
share of the coming mark, which the watchdog does not take again, and the emitted frame in progress ends before it, with its drop
frame written (the model's choice, log entries 12 and 14). -/
def Obligations.LocalFrameCompletesOrIsLost : Prop :=
  ∀ (s : State) (f : LocalSamples), s.resetN = true →
    let store := s.port.add
    let written := fun (lf : LocalFrame) (st : Store) =>
      { s with port := { s.port with add := st, localFrame := some { lf with edges := 768, addSoFar := f.toList } } }
    (∀ lf, s.port.mode ≠ .disabled → s.port.localFrame = some lf → lf.edges < 768 →
      (store.state = .stopped → exec (.localFrameComplete f) s = .next (written lf store)) ∧
      (store.state = .priming → store.frames = [] →
        exec (.localFrameComplete f) s = .next (written lf { store with frames := [f] })) ∧
      (∀ a, store.state = .priming → store.frames = [a] →
        exec (.localFrameComplete f) s = .next (written lf { store with state := .running, frames := [a, f] })) ∧
      (store.state = .running → store.frames.length ≤ 3 →
        exec (.localFrameComplete f) s = .next (written lf { store with frames := store.frames ++ [f] })) ∧
      (store.state = .running → store.frames.length = 4 →
        exec (.localFrameComplete f) s = .next
          { written lf { store with frames := store.frames.drop 1 ++ [f] } with
            counters := s.counters.set CounterName.addSlips.index (raise16 s.counters[CounterName.addSlips.index])
            events := EventUnit.post s.aligner.flywheel.superframe s.engine.address .addSlip none none s.events })) ∧
    ((∀ lf, s.port.localFrame = some lf → 768 ≤ lf.edges) → exec (.localFrameComplete f) s = .next s) ∧
    (∀ u, exec .emittedFrameBoundary s = .next u → u.port.mode = .external → u.port.timingLost = false → u.port.watchdog = 3 →
      exec .localTimingLost s = exec .localTimingLost u) ∧
    (s.port.mode = .external → s.port.timingLost = false → s.port.watchdog = 3 → s.ringOut.current = none →
      s.engine.resetPending = none →
      exec .localTimingLost s = .next { s with
        port := { s.port with
          timingLost := true, watchdog := 4, drop := { state := .stopped, frames := [], last := none }
          add := { state := .stopped, frames := [], last := none }, localFrame := none, markTaken := true }
        events := EventUnit.post s.aligner.flywheel.superframe s.engine.address .localTimingLost none none s.events })

/-! ### The Event Unit -/

/-- The retry timer of a class expires (R164, R166). Below retry count 4 the count rises and the resend is due; at 4 the change to
QUIET waits for a notification in emission, for each such class on its own (the model's choice, log entry 36), and otherwise
releases every class, withdraws the packet in the slot and records NOTIFIER_QUIET, the records staying in their queues. -/
def Obligations.RetryTimerExpires : Prop :=
  ∀ (s : State) (c : ClassId) (v : InService), s.resetN = true → s.events.service[c] = some v → v.timer = some 0 →
    (v.retries < 4 → exec (.retryTimerExpiry c) s = .next { s with
      events := EventUnit.test s.engine.address { s.events with
        service := s.events.service.set c (some { v with retries := v.retries + 1, timer := none, resendDue := true }) } }) ∧
    (v.retries = 4 → State.notificationEmitting s = true → exec (.retryTimerExpiry c) s = .next { s with
      events := EventUnit.test s.engine.address { s.events with
        quietWait := s.events.quietWait ++ [c], service := s.events.service.set c (some { v with timer := none }) } }) ∧
    (v.retries = 4 → State.notificationEmitting s = false → ∃ t, exec (.retryTimerExpiry c) s = .next t ∧
      t = { s with
        events := EventUnit.record
          { s.events with service := Vector.replicate 8 none, slot := none, notifier := .quiet, quietWait := [] }
          s.aligner.flywheel.superframe .notifierQuiet none none } ∧
      t.events.notifier = .quiet ∧ t.events.slot = none ∧ ∀ d : ClassId, t.events.service[d] = none)

/-- A post is handled by the first of four cases that applies, disabled, coalesced, new record or lost, and the test of R157 follows
(R154, R155). The post of a block is that handling with the flywheel's superframe of the moment, and touches nothing but the Event
Unit: a disabled kind stops no counter, state change or other effect. -/
def Obligations.PostIsHandledByFourCases : Prop :=
  ∀ (ev : EventUnit) (sf : Superframe) (k : EventKind) (src : Option WatchId) (val : Option Sample),
    let c := ev.kinds[k.index].cls
    let mayJoin := fun r : EventRecord =>
      (k = .dropSlip ∨ k = .addSlip ∨ k = .qualityLow ∨ k = .transitOverflow ∨ k = .requestDropped) ∧
        ev.queues[c].getLast? = some r ∧ r.kind = k ∧ r.source = src ∧
        ∀ v, ev.service[c] = some v → v.carried < ev.queues[c].length
    (∀ s : State, State.post s k src val = { s with
      events := EventUnit.post s.aligner.flywheel.superframe s.engine.address k src val s.events }) ∧
    (∀ address, EventUnit.post sf address k src val ev = EventUnit.test address (EventUnit.record ev sf k src val)) ∧
    (ev.kinds[k.index].enabled = false → EventUnit.record ev sf k src val = ev) ∧
    (ev.kinds[k.index].enabled = true →
      (∀ r, mayJoin r → EventUnit.record ev sf k src val = { ev with
        queues := ev.queues.set c (ev.queues[c].dropLast ++
          [{ r with occurrences := if r.occurrences = 255#8 then 255#8 else r.occurrences + 1#8 }]) }) ∧
      ((∀ r, ¬mayJoin r) → 0 < ev.free → EventUnit.record ev sf k src val = { ev with
        free := ev.free - 1
        queues := ev.queues.set c (ev.queues[c] ++
          [{ kind := k, source := src, superframe := sf, occurrences := 1#8, value := val }]) }) ∧
      ((∀ r, ¬mayJoin r) → ev.free = 0 → EventUnit.record ev sf k src val = { ev with
        lost := ev.lost.set c (if ev.lost[c] = 255#8 then 255#8 else ev.lost[c] + 1#8) }))

/-- The test of R157. With the slot empty it is filled with the resend of the first class in the priority order whose resend is
due (R164); failing that, in ACTIVE at a node with an address, with a new notification of the first eligible class (R156, R158);
otherwise nothing changes, as where every class with records to send is masked or stands behind a class in service. -/
def Obligations.SlotIsFilledInOrder : Prop :=
  ∀ (ev : EventUnit) (address : Option (BitVec 6)),
    let due := fun c : ClassId => ∃ v, ev.service[c] = some v ∧ v.resendDue = true
    (∀ x, ev.slot = some x → EventUnit.test address ev = ev) ∧
    (∀ (before : List ClassId) (c : ClassId) (after : List ClassId) (v : InService), ev.slot = none → ev.order = before ++ c :: after → (∀ d ∈ before, ¬due d) →
      ev.service[c] = some v → v.resendDue = true →
      EventUnit.test address ev = { ev with
        slot := some (c, { v.packet with kind := v.packet.kind ||| 0x80#8 })
        service := ev.service.set c (some { v with resendDue := false }) }) ∧
    (∀ (before : List ClassId) (c : ClassId) (after : List ClassId) (a : BitVec 6), ev.slot = none → ev.notifier = .active → address = some a → ev.order = before ++ c :: after →
      (∀ d ∈ ev.order, ¬due d) → (∀ d ∈ before, ev.service[d] = none ∧ (ev.masked[d] = true ∨ ev.queues[d] = [])) →
      ev.service[c] = none → ev.masked[c] = false → ev.queues[c] ≠ [] →
      let r := min 4 ev.queues[c].length
      let packet : Packet :=
        { destination := 0#8, source := 0#2 ++ a, kind := 0x03#8, sequence := ev.notifySequence
          operation := BitVec.ofNat 8 c.val
          params := [ev.lost[c], BitVec.ofNat 8 r] ++ (ev.queues[c].take r).flatMap EventRecord.octets }
      EventUnit.test address ev = { ev with
        notifySequence := ev.notifySequence + 1#8
        service := ev.service.set c (some { packet := packet, carried := r, snapshot := ev.lost[c], retries := 0, timer := none
                                            resendDue := false })
        slot := some (c, packet) }) ∧
    ((∀ d ∈ ev.order, ¬due d) → ev.notifier = .quiet ∨ address = none → EventUnit.test address ev = ev) ∧
    ((∀ d ∈ ev.order, ¬due d) →
      (∀ (before : List ClassId) (c : ClassId) (after : List ClassId), ev.order = before ++ c :: after →
        ev.queues[c] ≠ [] → ev.masked[c] = false → ∃ d ∈ before ++ [c], ev.service[d] ≠ none) →
      EventUnit.test address ev = ev)

/-! ### Management requests -/

/-- IDENTIFY changes no state, carries no parameters, and is answered with fourteen parameter octets: the code, the vendor and
part codes, the revision, the five sizes, the address, the position and the alignment state (R194); any other length is
refused. A broadcast is discarded at arrival (R133) and leaves no trace but the number that the model gives it (the model's
choice, log entries 10 and 17). The reserved bit that the reply's destination leaves out is the model's choice too (log entry
33). -/
def Obligations.IdentifyAnswers : Prop :=
  ∀ (s : State) (d : Delivery),
    (State.AddressedReady s d → exec (.identify d []) s = .next (State.answered s d .identify .ok
      ([0x50#8, 0x44#8, 0x04#8, 0x16#8, 0x01#8, 48#8, 32#8, 16#8, 64#8, 8#8] ++
        [match s.engine.address with | some a => 0#2 ++ a | none => 0xFF#8,
          match s.aligner.position with | some p => 0#2 ++ p | none => 0xFF#8,
          match s.aligner.align with
            | .noSignal => 0x00#8 | .hunt => 0x01#8 | .confirm => 0x02#8 | .aligned => 0x03#8]) false)) ∧
    (State.AddressedReady s d → ∀ params, params ≠ [] → params.length ≤ 56 →
      exec (.identify d params) s = .next (State.answered s d .identify .badLength [] false)) ∧
    (State.BroadcastReady s d → ∀ params, params.length ≤ 56 → exec (.identify d params) s =
      .next { s with service := { s.service with nextRequest := s.service.nextRequest + 1 } })

/-- ASSIGN_ADDRESS sets the node address to a value of 1..62, whatever address stood before, and is answered with the new address
as source (R132, R191); other values and lengths are refused. The taking ends QUIET (R167). The reserved bit that the reply's
destination leaves out is the model's choice (log entry 33). -/
def Obligations.AssignAddressIsExecuted : Prop :=
  ∀ (s : State) (d : Delivery), State.AddressedReady s d →
    (∀ a : Octet, 1 ≤ a.toNat → a.toNat ≤ 62 →
      exec (.assignAddress d [a]) s = .next
        (State.answered { s with engine := { s.engine with address := some (a.extractLsb' 0 6) } } d .assignAddress .ok
          [a, match s.aligner.position with | some p => 0#2 ++ p | none => 0xFF#8] false) ∧
      ∀ t, exec (.assignAddress d [a]) s = .next t → t.events.notifier = .active ∧ t.engine.address = some (a.extractLsb' 0 6)) ∧
    (∀ a : Octet, a.toNat = 0 ∨ 63 ≤ a.toNat →
      exec (.assignAddress d [a]) s = .next (State.answered s d .assignAddress .badParameter [] false)) ∧
    (∀ params, params.length ≠ 1 → params.length ≤ 56 →
      exec (.assignAddress d params) s = .next (State.answered s d .assignAddress .badLength [] false))

/-- READ_STATUS changes nothing and answers with 34 octets, each at its place; any parameter is refused with BAD_LENGTH (R139,
R181, R182, spec/12 12.7). The reserved bit that the reply's destination leaves out is the model's choice (log entry 33). -/
def Obligations.ReadStatusAnswers : Prop :=
  ∀ (s : State) (d : Delivery), State.AddressedReady s d →
    (∀ params, params ≠ [] → params.length ≤ 56 →
      exec (.readStatus d params) s = .next (State.answered s d .readStatus .badLength [] false)) ∧
    ∃ o : List Octet, exec (.readStatus d []) s = .next (State.answered s d .readStatus .ok o false) ∧ o.length = 34 ∧
      o[0]? = some (match s.aligner.align with
        | .noSignal => 0x00#8 | .hunt => 0x01#8 | .confirm => 0x02#8 | .aligned => 0x03#8) ∧
      o[1]? = some (BitVec.ofNat 8 s.aligner.consecutiveBad) ∧
      (o.drop 2).take 2 = octets16 (BitVec.ofNat 16 s.aligner.windowCount) ∧
      (o.drop 4).take 2 = octets16 s.aligner.flywheel.superframe ∧
      o[6]? = some (0#4 ++ s.aligner.flywheel.index) ∧
      o[7]? = some (match s.aligner.position with | some p => 0#2 ++ p | none => 0xFF#8) ∧
      o[8]? = some (match s.engine.address with | some a => 0#2 ++ a | none => 0xFF#8) ∧
      o[9]? = some (if s.aligner.lastUf then 1#8 else 0#8) ∧
      o[10]? = some (match s.mapStore.active with | .a => 0x00#8 | .b => 0x01#8) ∧
      (o.drop 11).take 3 = (match s.mapStore.shadow with
        | .editable => [0x00#8, 0#8, 0#8] | .checked => [0x01#8, 0#8, 0#8] | .pending t => 0x02#8 :: octets16 t) ∧
      o[14]? = some (match s.port.mode with | .disabled => 0x00#8 | .follow => 0x01#8 | .external => 0x02#8) ∧
      (o.drop 15).take 4 =
        [match s.port.drop.state with | .stopped => 0x00#8 | .priming => 0x01#8 | .running => 0x02#8,
          BitVec.ofNat 8 s.port.drop.frames.length,
          match s.port.add.state with | .stopped => 0x00#8 | .priming => 0x01#8 | .running => 0x02#8,
          BitVec.ofNat 8 s.port.add.frames.length] ∧
      o[19]? = some (match s.events.notifier with | .quiet => 0x00#8 | .active => 0x01#8) ∧
      (∃ flags : Octet, o[20]? = some flags ∧ ∀ c : ClassId, flags.getLsbD c.val = s.events.service[c].isSome) ∧
      o[21]? = some (BitVec.ofNat 8 s.events.free) ∧
      (∀ c : ClassId, o[22 + c.val]? = some s.events.lost[c]) ∧
      o[30]? = some 0#8 ∧ o[31]? = some (BitVec.ofNat 8 s.engine.replies.length) ∧
      (o.drop 32).take 2 = octets16 (BitVec.ofNat 16 (transitTotal s.service.transit))

/-- READ_COUNTERS answers with the eleven values in order, two octets each (R174, R178), and with the clear flag sets every counter
to 0 (R179); nothing else changes. The reserved bits of the request are ignored, and the one that the reply's destination leaves
out is the model's choice (log entry 33). -/
def Obligations.ReadCountersAnswers : Prop :=
  ∀ (s : State) (d : Delivery) (reserved : BitVec 7), State.AddressedReady s d →
    let values := [CounterName.checkErrors, .syncErrors, .sequenceErrors, .markedFrames, .alignLosses, .dropSlips, .addSlips,
      .serviceAborts, .transitOverflows, .badPackets, .requestsDropped].flatMap fun k =>
        [s.counters[k.index].extractLsb' 8 8, s.counters[k.index].extractLsb' 0 8]
    exec (.readCounters d reserved) s = .next (State.answered s d .readCounters .ok values false) ∧
      ∃ cleared : Counters, (∀ k : CounterName, cleared[k.index] = 0#16) ∧
        exec (.readCountersClear d reserved) s =
          .next (State.answered { s with counters := cleared } d .readCounters .ok values false)

/-- WRITE_NODE_SETUP applies the selected settings, all or none, and answers with the five as they stand (R146 to R148); a select
octet without a flag changes nothing; each SET row selects its own setting (log entry 20). That the settings of the reply are eight
octets, by the sizes of R146, and not the nine that R148 counts, is the model's choice (log entry 32), as is the reserved bit that
the reply's destination leaves out (log entry 33). -/
def Obligations.NodeSetupIsWritten : Prop :=
  ∀ (s : State) (d : Delivery), State.AddressedReady s d →
    let shown := fun u : State => [u.ringOut.idleWord.extractLsb' 16 8, u.ringOut.idleWord.extractLsb' 8 8,
        u.ringOut.idleWord.extractLsb' 0 8] ++ octets16 (BitVec.ofNat 16 u.aligner.threshold) ++
      [if u.aligner.forcedRehunt then 1#8 else 0#8,
        match u.port.mode with | .disabled => 0x00#8 | .follow => 0x01#8 | .external => 0x02#8, u.events.retryTime]
    let set := fun u : State => .next (State.answered u d .writeNodeSetup .ok (shown u) false)
    let refused : Host.Outcome State Fault Refusal := .next (State.answered s d .writeNodeSetup .badParameter [] false)
    let emptied := fun st : StoreState => ({ state := st, frames := [], last := none } : Store)
    let moded := fun (m : LocalMode) (st : StoreState) => { s with port :=
      if s.port.mode = m then s.port
      else { mode := m, drop := emptied st, add := emptied st, timingLost := false, watchdog := 0, markTaken := false
             localFrame := none, startDue := false } }
    (∀ w : Sample, exec (.setIdleWord d w) s = set { s with ringOut := { s.ringOut with idleWord := w } }) ∧
    (∀ n : BitVec 16, n.toNat ≤ 1023 →
      exec (.setQualityThreshold d n) s = set { s with aligner := { s.aligner with threshold := n.toNat } }) ∧
    (∀ n : BitVec 16, 1024 ≤ n.toNat → exec (.setQualityThreshold d n) s = refused) ∧
    exec (.setForcedRehunt d 0x00#8) s = set { s with aligner := { s.aligner with forcedRehunt := false } } ∧
    exec (.setForcedRehunt d 0x01#8) s = set { s with aligner := { s.aligner with forcedRehunt := true } } ∧
    (∀ o : Octet, 2 ≤ o.toNat → exec (.setForcedRehunt d o) s = refused) ∧
    exec (.setLocalMode d 0x00#8) s = set (moded .disabled .stopped) ∧
    exec (.setLocalMode d 0x01#8) s = set (moded .follow .priming) ∧
    exec (.setLocalMode d 0x02#8) s = set (moded .external .priming) ∧
    (∀ o : Octet, 3 ≤ o.toNat → exec (.setLocalMode d o) s = refused) ∧
    (∀ o : Octet, 1 ≤ o.toNat → exec (.setRetryTime d o) s = set { s with events := { s.events with retryTime := o } }) ∧
    exec (.setRetryTime d 0#8) s = refused ∧
    (∀ select w2 w1 w0 t1 t0 re mo rt : Octet, select &&& 0x1F#8 = 0#8 →
      exec (.writeNodeSetup d [select, w2, w1, w0, t1, t0, re, mo, rt]) s = set s) ∧
    (∀ w2 w1 w0 t1 t0 rt : Octet, (t1 ++ t0 : BitVec 16).toNat ≤ 1023 → 1 ≤ rt.toNat →
      exec (.writeNodeSetup d [0x13#8, w2, w1, w0, t1, t0, 0xFF#8, 0xFF#8, rt]) s = set { s with
        ringOut := { s.ringOut with idleWord := w2 ++ w1 ++ w0 }
        aligner := { s.aligner with threshold := (t1 ++ t0 : BitVec 16).toNat }
        events := { s.events with retryTime := rt } }) ∧
    (∀ w2 w1 w0 t1 t0 re mo : Octet, exec (.writeNodeSetup d [0x1F#8, w2, w1, w0, t1, t0, re, mo, 0#8]) s = refused) ∧
    (∀ params, params.length ≠ 9 → params.length ≤ 56 →
      exec (.writeNodeSetup d params) s = .next (State.answered s d .writeNodeSetup .badLength [] false))

/-- WRITE_MAP and READ_MAP with entries in the codes of spec/12 12.4. A WRITE_MAP of well-formed entries replaces the shadow's
entries from the first slot on and leaves it EDITABLE, or is refused with WRONG_STATE in PENDING (R40). Before the shadow state, a
count or range outside the bank is refused with BAD_PARAMETER, and so is any entry with an unknown action or substitution code, a
channel octet 20h..FEh, or a channel that its action has no place for or lacks (R39). READ_MAP answers with the bank's letter, the
shadow state, the range, and the entries of the bank in the role it names (R41), for the shadow the very octets written. Wrong
lengths are refused. The reserved bit that a reply's destination leaves out is the model's choice (log entry 33). -/
def Obligations.MapIsWrittenAndRead : Prop :=
  ∀ (s : State) (d : Delivery) (first count : Octet), State.AddressedReady s d →
    let inBank : Prop := 1 ≤ count.toNat ∧ count.toNat ≤ 24 ∧ first.toNat + count.toNat ≤ 48
    let shadowOf := fun m : MapStore => match m.active with | .a => m.bankB | .b => m.bankA
    let spelled := fun e : Entry =>
      [(match e.action with | .pass => 0x00#8 | .tap _ => 0x10#8 | .terminate _ => 0x20#8 | .insert _ => 0x30#8 | .mute => 0x40#8) |||
          (match e.substitution with | .hold => 0x00#8 | .idle => 0x01#8 | .zero => 0x02#8),
        match e.action with
          | .pass => 0xFF#8 | .mute => 0xFF#8
          | .tap c => BitVec.ofNat 8 c.val | .terminate c => BitVec.ofNat 8 c.val | .insert c => BitVec.ofNat 8 c.val]
    let shown := fun b : Bank => ((List.finRange 48).filter fun x : Slot =>
      decide (first.toNat ≤ x.val ∧ x.val < first.toNat + count.toNat)).flatMap fun x => spelled b[x]
    let write := fun octets : List Octet => exec (.writeMap d (first :: count :: octets)) s
    let answer := fun (u : State) (op : Operation) (k : ReplyCode) (o : List Octet) => Host.Outcome.next (φ := Fault) (ρ := Refusal)
      (State.answered u d op k o false)
    (∀ entries : List Entry, inBank → entries.length = count.toNat →
      ((∀ t, s.mapStore.shadow ≠ .pending t) →
        ∃ m : MapStore, write (entries.flatMap spelled) = answer { s with mapStore := m } .writeMap .ok [] ∧
          m.active = s.mapStore.active ∧ m.shadow = .editable ∧ MapStore.activeBank m = MapStore.activeBank s.mapStore ∧
          (∀ x : Slot, first.toNat ≤ x.val → x.val < first.toNat + count.toNat →
            entries[x.val - first.toNat]? = some (shadowOf m)[x]) ∧
          (∀ x : Slot, x.val < first.toNat ∨ first.toNat + count.toNat ≤ x.val → (shadowOf m)[x] = (shadowOf s.mapStore)[x]) ∧
          shown (shadowOf m) = entries.flatMap spelled) ∧
      ((∃ t, s.mapStore.shadow = .pending t) → write (entries.flatMap spelled) = answer s .writeMap .wrongState [])) ∧
    (∀ octets : List Octet, octets.length = 2 * count.toNat → octets.length ≤ 54 → ¬inBank →
      write octets = answer s .writeMap .badParameter []) ∧
    (∀ (front back : List Entry) (o0 o1 : Octet), front.length + 1 + back.length = count.toNat → inBank →
      let code := (o0 >>> 4).toNat
      5 ≤ code ∨ 3 ≤ (o0 &&& 0x0F#8).toNat ∨ (0x20 ≤ o1.toNat ∧ o1.toNat ≤ 0xFE) ∨
        (o1 = 0xFF#8 ∧ 1 ≤ code ∧ code ≤ 3) ∨ (o1.toNat < 0x20 ∧ (code = 0 ∨ code = 4)) →
      write (front.flatMap spelled ++ [o0, o1] ++ back.flatMap spelled) = answer s .writeMap .badParameter []) ∧
    (inBank → exec (.readMap d [0x01#8, first, count]) s = answer s .readMap .ok
      ([match s.mapStore.active with | .a => 0x01#8 | .b => 0x00#8,
        match s.mapStore.shadow with | .editable => 0x00#8 | .checked => 0x01#8 | .pending _ => 0x02#8, first, count] ++
        shown (shadowOf s.mapStore))) ∧
    (inBank → exec (.readMap d [0x00#8, first, count]) s = answer s .readMap .ok
      ([match s.mapStore.active with | .a => 0x00#8 | .b => 0x01#8,
        match s.mapStore.shadow with | .editable => 0x00#8 | .checked => 0x01#8 | .pending _ => 0x02#8, first, count] ++
        shown (MapStore.activeBank s.mapStore))) ∧
    (∀ role : Octet, 2 ≤ role.toNat ∨ ¬inBank → exec (.readMap d [role, first, count]) s = answer s .readMap .badParameter []) ∧
    (∀ params, params.length ≠ 3 → params.length ≤ 56 → exec (.readMap d params) s = answer s .readMap .badLength []) ∧
    (∀ params, params.length < 2 → exec (.writeMap d params) s = answer s .writeMap .badLength []) ∧
    (∀ more : List Octet, more.length ≤ 54 → more.length ≠ 2 * count.toNat → write more = answer s .writeMap .badLength [])

/-- COPY_ACTIVE (R42): refused with BAD_LENGTH for any parameter and with WRONG_STATE in PENDING; in EDITABLE and CHECKED all 48
entries of the active bank are copied into the shadow bank, which becomes CHECKED, and the reply is OK. The active bank and the
selector stand as they were. The reserved bit that a reply's destination leaves out is the model's choice (log entry 33). -/
def Obligations.CopyActiveIsExecuted : Prop :=
  ∀ (s : State) (d : Delivery), State.AddressedReady s d →
    (∀ params, params ≠ [] → params.length ≤ 56 →
      exec (.copyActive d params) s = .next (State.answered s d .copyActive .badLength [] false)) ∧
    (∀ t, s.mapStore.shadow = .pending t →
      exec (.copyActive d []) s = .next (State.answered s d .copyActive .wrongState [] false)) ∧
    (s.mapStore.shadow = .editable ∨ s.mapStore.shadow = .checked →
      (s.mapStore.active = .a → exec (.copyActive d []) s = .next (State.answered
        { s with mapStore := { s.mapStore with bankB := s.mapStore.bankA, shadow := .checked } } d .copyActive .ok [] false)) ∧
      (s.mapStore.active = .b → exec (.copyActive d []) s = .next (State.answered
        { s with mapStore := { s.mapStore with bankA := s.mapStore.bankB, shadow := .checked } } d .copyActive .ok [] false)))

/-- CHECK_MAP (R43, R44): refused with BAD_LENGTH for any parameter and with WRONG_STATE in PENDING. Where no channel is named by
two TAP or TERMINATE entries of the shadow bank, the shadow becomes CHECKED. Otherwise it becomes EDITABLE, and CONFLICT
carries the lowest channel in conflict and its two lowest slots. The contents stay as they were, and where R38 holds a CHECKED
shadow passes. The reserved bit that a reply's destination leaves out is the model's choice (log entry 33). -/
def Obligations.CheckMapIsExecuted : Prop :=
  ∀ (s : State) (d : Delivery), State.AddressedReady s d →
    let shadow := match s.mapStore.active with | .a => s.mapStore.bankB | .b => s.mapStore.bankA
    let drops := fun (c : Channel) (x : Slot) => shadow[x].action = .tap c ∨ shadow[x].action = .terminate c
    let conflict := fun c : Channel => ∃ x y : Slot, x < y ∧ drops c x ∧ drops c y
    (∀ params, params ≠ [] → params.length ≤ 56 →
      exec (.checkMap d params) s = .next (State.answered s d .checkMap .badLength [] false)) ∧
    (∀ t, s.mapStore.shadow = .pending t →
      exec (.checkMap d []) s = .next (State.answered s d .checkMap .wrongState [] false)) ∧
    (s.mapStore.shadow = .editable ∨ s.mapStore.shadow = .checked → (∀ c, ¬conflict c) →
      exec (.checkMap d []) s = .next (State.answered
        { s with mapStore := { s.mapStore with shadow := .checked } } d .checkMap .ok [] false)) ∧
    (MapStore.Sound s.mapStore → s.mapStore.shadow = .checked →
      exec (.checkMap d []) s = .next (State.answered s d .checkMap .ok [] false)) ∧
    (∀ (c : Channel) (x y : Slot), s.mapStore.shadow = .editable ∨ s.mapStore.shadow = .checked →
      (∀ b, b < c → ¬conflict b) → x < y → drops c x → drops c y → (∀ z, drops c z → z = x ∨ y ≤ z) →
      exec (.checkMap d []) s = .next (State.answered
        { s with mapStore := { s.mapStore with shadow := .editable } } d .checkMap .conflict
        [BitVec.ofNat 8 c.val, BitVec.ofNat 8 x.val, BitVec.ofNat 8 y.val] false))

/-- SCHEDULE_SWITCH is tested in order against the form, the shadow state, the ring time of the arrival frame and the superframe C
of that frame (R56 to R58), and is accepted for a target 1..32767 ahead of C; CANCEL_SWITCH returns a PENDING shadow to CHECKED
and answers with the target, and is refused with the shadow state otherwise (R61). The reserved bit that a reply's destination
leaves out is the model's choice (log entry 33). -/
def Obligations.SwitchIsScheduledAndCancelled : Prop :=
  ∀ (s : State) (d : Delivery) (form hi lo : Octet), State.AddressedReady s d →
    let target : Superframe := if form = 0#8 then hi ++ lo else d.superframe + 1#16
    let ahead := 1 ≤ (target - d.superframe).toNat ∧ (target - d.superframe).toNat ≤ 32767
    let schedule := exec (.scheduleSwitch d [form, hi, lo]) s
    let answer := fun (u : State) (k : ReplyCode) (o : List Octet) => Host.Outcome.next (φ := Fault) (ρ := Refusal)
      (State.answered u d .scheduleSwitch k o false)
    (2 ≤ form.toNat → schedule = answer s .badParameter []) ∧
    (form.toNat ≤ 1 → s.mapStore.shadow = .editable → schedule = answer s .wrongState [0x00#8]) ∧
    (∀ t, form.toNat ≤ 1 → s.mapStore.shadow = .pending t → schedule = answer s .wrongState (0x02#8 :: octets16 t)) ∧
    (form.toNat ≤ 1 → s.mapStore.shadow = .checked → d.ringTime = false → schedule = answer s .noRingTime []) ∧
    (form.toNat ≤ 1 → s.mapStore.shadow = .checked → d.ringTime = true → ¬ahead →
      schedule = answer s .tooLate (octets16 d.superframe ++ octets16 target)) ∧
    (form.toNat ≤ 1 → s.mapStore.shadow = .checked → d.ringTime = true → ahead →
      schedule = answer { s with mapStore := { s.mapStore with shadow := .pending target } } .ok
        (octets16 d.superframe ++ octets16 target)) ∧
    (∀ params, params.length ≠ 3 → params.length ≤ 56 →
      exec (.scheduleSwitch d params) s = answer s .badLength []) ∧
    (∀ t, s.mapStore.shadow = .pending t → exec (.cancelSwitch d []) s = .next (State.answered
      { s with mapStore := { s.mapStore with shadow := .checked } } d .cancelSwitch .ok (octets16 t) false)) ∧
    (s.mapStore.shadow = .editable → exec (.cancelSwitch d []) s =
      .next (State.answered s d .cancelSwitch .wrongState [0x00#8] false)) ∧
    (s.mapStore.shadow = .checked → exec (.cancelSwitch d []) s =
      .next (State.answered s d .cancelSwitch .wrongState [0x01#8] false)) ∧
    (∀ params, params ≠ [] → params.length ≤ 56 →
      exec (.cancelSwitch d params) s = .next (State.answered s d .cancelSwitch .badLength [] false))

/-- WRITE_WATCH with a valid setup replaces the setup of the indexed watch and restarts it, and leaves the other fifteen as they
were (R103, R104). READ_WATCH changes nothing and answers with the index, the setup octets, and the dynamic state whatever it is
(R105, spec/12 12.5): the status, the silence counter, which of the stable value and the candidate are present, both values with 0
for one that is absent, and the candidate count; for a watch just written that is the restarted state. An index, slot, mode,
sense, consequence, limit or debounce outside its values is refused and changes nothing. The copies that are due forget the
watch's former status (the model's note for the free choice of R45, log entry 7), and the reserved bit that a reply's destination
leaves out is the model's choice too (log entry 33). -/
def Obligations.WatchIsWrittenAndRead : Prop :=
  ∀ (s : State) (d : Delivery) (index : Octet) (u : WatchSetup), State.AddressedReady s d →
    let spelled := fun u : WatchSetup =>
      [if u.enabled then 0x80#8 else 0x00#8, BitVec.ofNat 8 u.slot.val,
        (match u.mode with | .activity => 0x00#8 | .change => 0x10#8) ||| (match u.sense with | .matching => 0x00#8 | .differing => 0x01#8)] ++
      octets24 u.value ++ octets24 u.mask ++ octets16 (BitVec.ofNat 4 u.debounce ++ BitVec.ofNat 12 u.limit) ++
      [match u.consequence with | .notify => 0x00#8 | .substitute => 0x01#8]
    let setup := spelled u
    let refused := Host.Outcome.next (φ := Fault) (ρ := Refusal)
      (State.answered s d .writeWatch .badParameter [] false)
    (∀ h : index.toNat < 16, 1 ≤ u.limit → u.limit ≤ 4095 → 1 ≤ u.debounce → u.debounce ≤ 15 →
      ∃ t, exec (.writeWatch d (index :: setup)) s = .next (State.answered t d .writeWatch .ok [] false) ∧
        t = { s with
          watches := s.watches.set index.toNat
            { setup := u, status := .active, silence := u.limit, stable := none, candidate := none, candidateCount := 0 } h
          ringOut := { s.ringOut with copies := s.ringOut.copies.map fun c =>
            { c with statusBefore := c.statusBefore.filter fun p => p.1 ≠ ⟨index.toNat, h⟩ } } } ∧
        exec (.readWatch d [index]) t = .next (State.answered t d .readWatch .ok
          (index :: setup ++ [0#8] ++ octets16 (BitVec.ofNat 16 u.limit) ++ List.replicate 8 0#8) false)) ∧
    (∀ h : index.toNat < 16,
      let w := s.watches[index.toNat]
      exec (.readWatch d [index]) s = .next (State.answered s d .readWatch .ok
        (index :: spelled w.setup ++ [match w.status with | .active => 0x00#8 | .silent => 0x01#8] ++
          octets16 (BitVec.ofNat 16 w.silence) ++
          [(if w.stable = none then 0x00#8 else 0x01#8) ||| (if w.candidate = none then 0x00#8 else 0x02#8)] ++
          octets24 (w.stable.getD 0#24) ++ octets24 (w.candidate.getD 0#24) ++ [BitVec.ofNat 8 w.candidateCount]) false)) ∧
    (16 ≤ index.toNat → exec (.writeWatch d (index :: setup)) s = refused ∧
      exec (.readWatch d [index]) s = .next (State.answered s d .readWatch .badParameter [] false)) ∧
    (∀ en sl ms v2 v1 v0 m2 m1 m0 d1 d0 co : Octet,
      48 ≤ sl.toNat ∨ 2 ≤ (ms >>> 4).toNat ∨ 2 ≤ (ms &&& 0x0F#8).toNat ∨ 2 ≤ co.toNat ∨ (d1 >>> 4) = 0#8 ∨
        (d1 ++ d0 : BitVec 16) &&& 0x0FFF#16 = 0#16 →
      exec (.writeWatch d [index, en, sl, ms, v2, v1, v0, m2, m1, m0, d1, d0, co]) s = refused) ∧
    (∀ params, params.length ≤ 56 →
      (params.length ≠ 13 → exec (.writeWatch d params) s = .next (State.answered s d .writeWatch .badLength [] false)) ∧
      (params.length ≠ 1 → exec (.readWatch d params) s = .next (State.answered s d .readWatch .badLength [] false)))

/-- The class requests (R168 to R171), each followed by the test of R157. WRITE_EVENT_SETUP replaces kinds, masks, order mode and
auto-ack and answers with the setup as it stands; READ_CLASS removes nothing and answers with at most four records;
DISCARD_CLASS passes over the carried records, frees the oldest behind them and answers with their number. The reserved bit that a
reply's destination leaves out is the model's choice (log entry 33). -/
def Obligations.ClassRequestsAreExecuted : Prop :=
  ∀ (s : State) (d : Delivery), State.AddressedReady s d →
    let tested := fun ev : EventUnit => { s with events := EventUnit.test s.engine.address ev }
    (∀ (kinds : Vector KindSetting 21) (masks mode acks : Octet), mode.toNat ≤ 1 →
      let kindOctets := kinds.toList.map fun k => (if k.enabled then 0x80#8 else 0x00#8) ||| BitVec.ofNat 8 k.cls.val
      exec (.writeEventSetup d (kindOctets ++ [masks, mode, acks])) s = .next (State.answered
        (tested { s.events with
          kinds := kinds, masked := Vector.ofFn fun c => masks.getLsbD c.val, autoAck := Vector.ofFn fun c => acks.getLsbD c.val
          orderMode := if mode = 0#8 then .fixed else .rotate
          order := if mode = 1#8 ∧ s.events.orderMode = .rotate then s.events.order else [0, 1, 2, 3, 4, 5, 6, 7] })
        d .writeEventSetup .ok (kindOctets ++ [masks, mode, acks]) false)) ∧
    (∀ params : List Octet, params.length = 24 → 2 ≤ (params.getD 22 0#8).toNat →
      exec (.writeEventSetup d params) s = .next (State.answered s d .writeEventSetup .badParameter [] false)) ∧
    (∀ c : ClassId,
      exec (.readClass d [BitVec.ofNat 8 c.val]) s = .next (State.answered (tested s.events) d .readClass .ok
        ([BitVec.ofNat 8 c.val, if s.events.service[c].isSome then 1#8 else 0#8, BitVec.ofNat 8 s.events.queues[c].length,
          s.events.lost[c], BitVec.ofNat 8 (min 4 s.events.queues[c].length)] ++
          (s.events.queues[c].take 4).flatMap fun r =>
            [BitVec.ofNat 8 (r.kind.index.val + 1), match r.source with | some i => BitVec.ofNat 8 i.val | none => 0xFF#8] ++
              octets16 r.superframe ++ [r.occurrences] ++ octets24 (r.value.getD 0#24)) false) ∧
      ∀ n : Octet,
        let carried := match s.events.service[c] with | some v => v.carried | none => 0
        let removed := min n.toNat (s.events.queues[c].length - carried)
        exec (.discardClass d [BitVec.ofNat 8 c.val, n]) s = .next (State.answered
          (tested { s.events with
            free := s.events.free + removed
            queues := s.events.queues.set c
              (s.events.queues[c].take carried ++ s.events.queues[c].drop (carried + removed)) })
          d .discardClass .ok [BitVec.ofNat 8 removed] false)) ∧
    (∀ k n : Octet, 8 ≤ k.toNat →
      exec (.readClass d [k]) s = .next (State.answered s d .readClass .badParameter [] false) ∧
      exec (.discardClass d [k, n]) s = .next (State.answered s d .discardClass .badParameter [] false)) ∧
    (∀ params, params.length ≤ 56 →
      (params.length ≠ 24 →
        exec (.writeEventSetup d params) s = .next (State.answered s d .writeEventSetup .badLength [] false)) ∧
      (params.length ≠ 1 → exec (.readClass d params) s = .next (State.answered s d .readClass .badLength [] false)) ∧
      (params.length ≠ 2 → exec (.discardClass d params) s = .next (State.answered s d .discardClass .badLength [] false)))

/-- An accepted RESET_NODE notes its scope and leaves a reset pending, answers an addressed request with OK and the scope in the
reset reply, answers a broadcast with nothing, and changes nothing else (R143, R186, R187, R188). While a reset is pending nothing is
taken: TAKE_REQUEST changes nothing, and a request of any operation, addressed in either form or broadcast in the executed subset,
joins the end of the queue and waits (R133, R136, R149). The reserved bit that the reply's destination leaves out is the model's
choice (log entry 33), and so is the number by which a broadcast and its reset's moment are named (log entry 10). -/
def Obligations.ResetNodeIsNoted : Prop :=
  ∀ (s : State) (d : Delivery),
    let noted := fun (scope : ResetScope) (moment : ResetMoment) =>
      { s with engine := { s.engine with resetPending := some { scope := scope, moment := moment } } }
    (State.AddressedReady s d →
      exec (.resetNodeCold d) s = .next (State.answered (noted .cold .replyCompletes) d .resetNode .ok [0x00#8] true) ∧
      exec (.resetNodeWarm d) s = .next (State.answered (noted .warm .replyCompletes) d .resetNode .ok [0x01#8] true)) ∧
    (State.BroadcastReady s d →
      exec (.resetNodeCold d) s = .next (State.tookBroadcast (noted .cold (.endForwarded s.service.nextRequest)) d) ∧
      exec (.resetNodeWarm d) s = .next (State.tookBroadcast (noted .warm (.endForwarded s.service.nextRequest)) d)) ∧
    (s.resetN = true → s.engine.resetPending ≠ none → exec .takeRequest s = .next s ∧
      ∀ (op : Operation) (params : List Octet) (c : Instr), deliversRequest c d op params → s.engine.requests.length ≤ 3 →
        (∀ q ∈ s.engine.requests, q.packet.sequence ≠ d.sequence) →
        (∀ destination, State.consumesAt s d destination →
          exec c s = .next (State.joined s (Delivery.request d destination .addressed op params))) ∧
        (d.form = .broadcast → Operation.inSubset op →
          exec c s = .next (State.joined (State.numbered s)
            (Delivery.request d 0x3F#8 (.broadcast s.service.nextRequest false) op params))))

/-- Broadcast requests (R68, R133, R143): the switch operations are executed without a reply, and a refused one records
SWITCH_REFUSED with its operation and code. An operation outside the executed subset is discarded at arrival; that it leaves no
trace but the number of the request is the model's choice (log entries 10 and 17). -/
def Obligations.BroadcastIsExecutedWithoutReply : Prop :=
  ∀ (s : State) (d : Delivery), State.BroadcastReady s d →
    let refusal := fun (op code : Octet) => { s with
      events := EventUnit.post s.aligner.flywheel.superframe s.engine.address .switchRefused none (some (op ++ code ++ 0#8)) s.events }
    (∀ hi lo : Octet, s.mapStore.shadow = .checked → d.ringTime = true →
      (isAhead (hi ++ lo) d.superframe = true → exec (.scheduleSwitch d [0#8, hi, lo]) s =
        .next (State.tookBroadcast { s with mapStore := { s.mapStore with shadow := .pending (hi ++ lo) } } d)) ∧
      (isAhead (hi ++ lo) d.superframe = false → exec (.scheduleSwitch d [0#8, hi, lo]) s =
        .next (State.tookBroadcast (refusal 0x09#8 0x06#8) d))) ∧
    (s.mapStore.shadow = .checked → d.ringTime = false → ∀ hi lo : Octet,
      exec (.scheduleSwitch d [0#8, hi, lo]) s = .next (State.tookBroadcast (refusal 0x09#8 0x07#8) d)) ∧
    (∀ hi lo : Octet, s.mapStore.shadow ≠ .checked →
      exec (.scheduleSwitch d [0#8, hi, lo]) s = .next (State.tookBroadcast (refusal 0x09#8 0x04#8) d)) ∧
    (∀ form hi lo : Octet, 2 ≤ form.toNat →
      exec (.scheduleSwitch d [form, hi, lo]) s = .next (State.tookBroadcast (refusal 0x09#8 0x02#8) d)) ∧
    (∀ t, s.mapStore.shadow = .pending t → exec (.cancelSwitch d []) s =
      .next (State.tookBroadcast { s with mapStore := { s.mapStore with shadow := .checked } } d)) ∧
    (s.mapStore.shadow = .editable ∨ s.mapStore.shadow = .checked →
      exec (.cancelSwitch d []) s = .next (State.tookBroadcast (refusal 0x0A#8 0x04#8) d)) ∧
    (∀ params, params.length ≤ 56 →
      (params.length ≠ 3 →
        exec (.scheduleSwitch d params) s = .next (State.tookBroadcast (refusal 0x09#8 0x01#8) d)) ∧
      (params ≠ [] → exec (.cancelSwitch d params) s = .next (State.tookBroadcast (refusal 0x0A#8 0x01#8) d))) ∧
    (∀ op params c, requestCommand op d params = some c → params.length ≤ 56 →
      op ≠ .scheduleSwitch → op ≠ .cancelSwitch → op ≠ .resetNode →
      exec c s = .next { s with service := { s.service with nextRequest := s.service.nextRequest + 1 } })

/-- Arrival (R114, R133 to R135): a request whose class and sequence stand in the queue already changes nothing, any other that
finds four requests queued is dropped, counted and recorded, and any other still joins the end of the queue with its class, its
arrival facts and a clear forwarded flag, and is offered for taking at once (R136; one taking, log entry 18). An addressed and a
broadcast request of one sequence are no duplicates of each other. A broadcast outside the executed subset is discarded; that a
broadcast uses up its number in every case is the model's choice (log entry 10), and so is that the command of a request which
the node does not consume (R114 forwards it) changes nothing (log entries 4 and 17). -/
def Obligations.ArrivalIsTested : Prop :=
  ∀ (s : State) (d : Delivery) (c : Instr) (op : Operation) (params : List Octet), s.resetN = true →
    deliversRequest c d op params →
    let dropped := fun u : State => { u with
      counters := s.counters.set CounterName.requestsDropped.index (raise16 s.counters[CounterName.requestsDropped.index])
      events := EventUnit.post s.aligner.flywheel.superframe s.engine.address .requestDropped none none s.events }
    let joins := fun (u : State) (r : Request) =>
      exec c s = exec .takeRequest (State.joined u r) ∧
        ∀ first later, s.engine.requests ++ [r] = first :: later →
          s.engine.resetPending ≠ none ∨ (first.cls = .addressed ∧ s.engine.replies.length = 4) →
          exec c s = .next (State.joined u r)
    ((d.form = .address ∧ s.engine.address = none) ∨ (d.form = .position ∧ s.aligner.position = none) →
      exec c s = .next s) ∧
    (∀ destination, State.consumesAt s d destination →
      ((∃ q ∈ s.engine.requests, q.cls = .addressed ∧ q.packet.sequence = d.sequence) → exec c s = .next s) ∧
      ((∀ q ∈ s.engine.requests, q.cls = .addressed → q.packet.sequence ≠ d.sequence) →
        (s.engine.requests.length = 4 → exec c s = .next (dropped s)) ∧
        (s.engine.requests.length ≤ 3 → joins s (Delivery.request d destination .addressed op params)))) ∧
    (d.form = .broadcast →
      (¬Operation.inSubset op → exec c s = .next (State.numbered s)) ∧
      (Operation.inSubset op →
        ((∃ q ∈ s.engine.requests, Request.broadcastOf q d.sequence) → exec c s = .next (State.numbered s)) ∧
        ((∀ q ∈ s.engine.requests, ¬Request.broadcastOf q d.sequence) →
          (s.engine.requests.length = 4 → exec c s = .next (dropped (State.numbered s))) ∧
          (s.engine.requests.length ≤ 3 → joins (State.numbered s)
            (Delivery.request d 0x3F#8 (.broadcast s.service.nextRequest false) op params)))))

/-- A taking removes the oldest request and handles it to its end (R136 to R140, R142 to R144, R178, R186): an addressed one whose
sequence the reply cache holds is answered by a copy with R 1, or by nothing while the cached reply is queued; one whose operation
number names none is refused, and so is a READ_COUNTERS or RESET_NODE of another length and a RESET_NODE of another scope, which
as a broadcast has no effect but that the cache takes its sequence; a broadcast in the broadcast cache is discarded. Any other is
executed with the arrival facts that it brought: it does what the command of its delivery does at an empty queue, READ_STATUS
alone showing the requests that wait. A request that may not be taken waits, as every request does while a reset is pending. The
reserved bit that a reply's destination leaves out (log entry 33), and the source of a reply from a node with neither address nor
position (log entry 13), are the model's choice. -/
def Obligations.RequestIsTaken : Prop :=
  ∀ (s : State) (r : Request) (rest : List Request), s.resetN = true → s.engine.requests = r :: rest →
    (s.engine.resetPending ≠ none → exec .takeRequest s = .next s) ∧
    (s.engine.resetPending = none →
    let told := fun u : State =>
      { u with
        engine := { u.engine with requests := rest }
        events := EventUnit.requestTaken u.engine.address u.events }
    (∀ p, r.cls = .addressed → s.engine.replies.length < 4 → s.engine.replyCache = some p →
      p.sequence = r.packet.sequence →
      exec .takeRequest s = .next (told (if s.engine.replies.any (·.ofCache) then s
        else { s with engine := { s.engine with replies := s.engine.replies ++
          [{ packet := { p with kind := p.kind ||| 0x80#8 }, begun := false, isReset := false, ofCache := true }] } }))) ∧
    (r.cls = .addressed → s.engine.replies.length < 4 → Engine.cacheMisses s.engine r.packet.sequence = true →
      let refused := fun code : Octet =>
        let p : Packet := { destination := r.packet.source &&& 0x7F#8
                            source := match s.engine.address with
                              | some a => 0#2 ++ a
                              | none => 1#2 ++ s.aligner.position.getD 63#6
                            kind := 0x02#8, sequence := r.packet.sequence, operation := r.packet.operation
                            params := [code] }
        exec .takeRequest s = .next (told { s with engine := { s.engine with
          replies := (s.engine.replies.map fun q => { q with ofCache := false }) ++
            [{ packet := p, begun := false, isReset := false, ofCache := true }]
          replyCache := some p } })
      (r.packet.operation = 0x00#8 ∨ 0x12 ≤ r.packet.operation.toNat → refused 0x03#8) ∧
      (r.packet.operation = 0x10#8 ∨ r.packet.operation = 0x11#8 → r.packet.params.length ≠ 1 → refused 0x01#8) ∧
      (∀ code : Octet, r.packet.operation = 0x11#8 → r.packet.params = [code] → 2 ≤ code.toNat → refused 0x02#8)) ∧
    (∀ n f, r.cls = .broadcast n f → s.engine.broadcastCache = some r.packet.sequence →
      exec .takeRequest s = .next (told s)) ∧
    (∀ n f, r.cls = .broadcast n f → s.engine.broadcastCache ≠ some r.packet.sequence → r.packet.operation = 0x11#8 →
      (∀ code : Octet, r.packet.params = [code] → 2 ≤ code.toNat) →
      exec .takeRequest s = .next (told { s with engine := { s.engine with broadcastCache := some r.packet.sequence } })) ∧
    (r.cls = .addressed → s.engine.replies.length = 4 → exec .takeRequest s = .next s) ∧
    let queued := fun (u : State) (q : List Request) => { u with engine := { u.engine with requests := q } }
    let facts := fun form : DestinationForm => ({ form := form, source := r.packet.source, sequence := r.packet.sequence
                                                  superframe := r.superframe, ringTime := r.ringTime } : Delivery)
    r.packet.params.length ≤ 56 →
    (∀ op form c, r.cls = .addressed → s.engine.replies.length < 4 → Engine.cacheMisses s.engine r.packet.sequence = true →
      r.packet.operation = Operation.number op → form ≠ .broadcast → (State.consumedAs s form).isSome = true →
      requestCommand op (facts form) r.packet.params = some c →
      (op ≠ .readStatus ∨ r.packet.params ≠ [] → ∃ v, exec c (queued s []) = .next v ∧ exec .takeRequest s = .next (queued v rest)) ∧
      (op = .readStatus → r.packet.params = [] → ∃ o o' : List Octet,
        exec .takeRequest s = .next (State.answered (queued s rest) (facts form) .readStatus .ok o false) ∧
        exec c (queued s []) = .next (State.answered (queued s []) (facts form) .readStatus .ok o' false) ∧
        o[30]? = some (BitVec.ofNat 8 rest.length) ∧ ∀ i, i ≠ 30 → o[i]? = o'[i]?)) ∧
    (∀ n f, r.cls = .broadcast n f → s.engine.broadcastCache ≠ some r.packet.sequence →
      (∀ op c, op = .scheduleSwitch ∨ op = .cancelSwitch → r.packet.operation = Operation.number op →
        requestCommand op (facts .broadcast) r.packet.params = some c →
        ∃ v, exec c (queued s []) = .next v ∧ exec .takeRequest s = .next (queued { v with service := s.service } rest)) ∧
      (∀ code scope, r.packet.operation = 0x11#8 → r.packet.params = [code] →
        code = 0x00#8 ∧ scope = .cold ∨ code = 0x01#8 ∧ scope = .warm →
        exec .takeRequest s = .next (told { s with engine := { s.engine with
          broadcastCache := some r.packet.sequence
          resetPending := some { scope := scope, moment := if f then .boundary else .endForwarded n } } }))))

/-! ### What every step keeps -/

/-- The active bank and a shadow that is CHECKED or PENDING have no channel in conflict (R38). -/
def Obligations.MapStaysConflictFree : Prop :=
  ∀ s t : State, MapStore.Sound s.mapStore → step s = .next t → MapStore.Sound t.mapStore

/-- Each store's fill lies in 0..4 and fits its state, a RUNNING store at fill 0 holds a last delivered frame, and the stores, the
watchdog and the local timing fit the local mode (R72, R75, R80, R85). -/
def Obligations.PortStaysSound : Prop :=
  ∀ s t : State, LocalPort.Sound s.port → Store.Sound s.port.drop → Store.Sound s.port.add → step s = .next t →
    LocalPort.Sound t.port ∧ Store.Sound t.port.drop ∧ Store.Sound t.port.add

/-- In FOLLOW the stores keep a constant fill through every emitted frame, and no step that stays in FOLLOW counts a slip (R75,
R84, R176). -/
def Obligations.FollowNeverSlips : Prop :=
  ∀ s t : State, State.FollowSteady s → step s = .next t → State.FollowSteady t ∧
    (s.resetN = true → s.port.mode = .follow → t.port.mode = .follow →
      (t.counters[CounterName.dropSlips.index] = s.counters[CounterName.dropSlips.index] ∨
        t.counters[CounterName.dropSlips.index] = 0#16) ∧
      (t.counters[CounterName.addSlips.index] = s.counters[CounterName.addSlips.index] ∨
        t.counters[CounterName.addSlips.index] = 0#16))

/-- Every watch keeps its counter within its limit, its candidate count below its debounce, its kept values masked, and the restarted
state while it is disabled (R91, R92). -/
def Obligations.WatchesStaySound : Prop :=
  ∀ s t : State, (∀ i : WatchId, Watch.Sound s.watches[i]) → step s = .next t → ∀ i : WatchId, Watch.Sound t.watches[i]

/-- The transit queue never holds more than 256 octets, an assembly never more than 64, only the newest packet is incomplete and only
the head has begun forwarding, and the wait count never passes 65 (R116, R119, R120, R124, R125). The arbiter's choice for a frame
is open to a packet made ready at its moment no longer than until the payload of that frame is complete (R124; that it is as long is
the model's choice, log entry 28). -/
def Obligations.ServiceChannelStaysSound : Prop :=
  ∀ s t : State, step s = .next t →
    (ServiceChannel.Sound s.service → ServiceChannel.Sound t.service) ∧ (State.ChoiceSound s → State.ChoiceSound t)

/-- The free records and the records held in the class queues always number 64, a class in service carries the oldest records of its
queue, its snapshot is never larger than the lost count, and the priority order holds each class once (R153, R155, R156, R159). -/
def Obligations.EventUnitStaysSound : Prop :=
  ∀ s t : State, EventUnit.Sound s.events → step s = .next t → EventUnit.Sound t.events

/-- The notifier is ACTIVE only at a node that holds an address, and in QUIET no class is in service, no packet waits in the slot and
no change to QUIET is due; an address, once held, is lost only at a hardware reset (R166). -/
def Obligations.NotifierNeedsAnAddress : Prop :=
  (∀ s t : State, State.NotifierSound s → step s = .next t → State.NotifierSound t) ∧
    ∀ (c : Instr) (s t : State), exec c s = .next t → s.engine.address ≠ none → t.engine.address = none →
      (∃ high carrier, c = .powerOn high carrier) ∨ (∃ carrier, c = .hardwareResetRelease carrier)

/-- The request queue and the reply queue hold at most four entries, no two queued requests of one class carry one sequence, and the
address lies in 1..62 (R134, R135, R136, R141); every packet that the node builds, wherever it waits, fits 64 octets (R131, R140,
R158). -/
def Obligations.EngineStaysSound : Prop :=
  ∀ s t : State, step s = .next t →
    (Engine.Sound s.engine → Engine.Sound t.engine) ∧ (State.PacketsFit s → State.PacketsFit t)

/-- The aligner's counts stay in their ranges, the quality window counts no more frames than it has held, and the counts are 0
outside ALIGNED (R14, R17, R20, R23). That the confirm count is 0 in ALIGNED too is the model's choice (log entry 34). -/
def Obligations.AlignerStaysSound : Prop :=
  ∀ s t : State, State.AlignerSound s → step s = .next t → State.AlignerSound t

/-- Every emitted frame has the sync word, a correct check and a hop other than 0; a substitute frame has UF 1 and EM 0; while
RESET_N is low no frame is emitted (R3, R4, R6, R9, R10, R11). -/
def Obligations.EmittedFramesAreCorrect : Prop :=
  ∀ s t : State, State.RingOutSound s → step s = .next t → State.RingOutSound t

/-- The invariants above hold of the state after reset. -/
def Obligations.ResetMeetsTheInvariants : Prop :=
  MapStore.Sound State.reset.mapStore ∧ LocalPort.Sound State.reset.port ∧ Store.Sound State.reset.port.drop ∧
    Store.Sound State.reset.port.add ∧ State.FollowSteady State.reset ∧
    (∀ i : WatchId, Watch.Sound State.reset.watches[i]) ∧ ServiceChannel.Sound State.reset.service ∧
    State.ChoiceSound State.reset ∧
    EventUnit.Sound State.reset.events ∧ State.NotifierSound State.reset ∧ Engine.Sound State.reset.engine ∧
    State.AlignerSound State.reset ∧ State.RingOutSound State.reset ∧ State.PacketsFit State.reset

/-! ### Layouts -/

/-- A frame, sent field by field and read back in the same order, is the frame that was sent (R1): no bit of any of its 1240 is lost,
and the check covers 1212 of them (R5). -/
def Obligations.FrameBitsReadBack : Prop :=
  ∀ f : Frame, (Frame.bits f).length = 1240 ∧ (Frame.covered f).length = 1212 ∧ Frame.ofBits (Frame.bits f) = f

/-- A packet of at most 56 parameter octets, sent as octets with its length and its check, is read back as the packet that was sent
(R117, R131), and a packet with one wrong check octet is not; a segment the node builds is read back with its kind and its octets
(R109). -/
def Obligations.PacketOctetsReadBack : Prop :=
  (∀ p : Packet, p.params.length ≤ 56 → Packet.ofOctets (Packet.octets p) = some p ∧
    ∀ (front : List Octet) (hi lo : Octet), Packet.octets p = front ++ [hi, lo] →
      ∀ wrong : Octet, (wrong ≠ lo → Packet.ofOctets (front ++ [hi, wrong]) = none) ∧
        (wrong ≠ hi → Packet.ofOctets (front ++ [wrong, lo]) = none)) ∧
    ∀ (k : SegmentKind) (octets : List Octet),
      ((k = .idle ∨ k = .abort) → octets = []) → (k ≠ .idle → k ≠ .abort → 1 ≤ octets.length ∧ octets.length ≤ 3) →
      Segment.read (Segment.build k octets) = some (k, octets)
end

