-- ==== Sys2Proof/Laws/State.lean ====
section
/-! SUPPORT. One lemma per field per update of State: what each update of a few fields leaves as it was. Every one is true by
unfolding the update. -/

namespace Sys2Proof.Machine

/-! ### State.count -/

@[simp] theorem State.count_resetN (s : State) (c : CounterName) : (State.count s c).resetN = s.resetN := rfl
@[simp] theorem State.count_ringOut (s : State) (c : CounterName) : (State.count s c).ringOut = s.ringOut := rfl
@[simp] theorem State.count_aligner (s : State) (c : CounterName) : (State.count s c).aligner = s.aligner := rfl
@[simp] theorem State.count_mapStore (s : State) (c : CounterName) : (State.count s c).mapStore = s.mapStore := rfl
@[simp] theorem State.count_lastGood (s : State) (c : CounterName) : (State.count s c).lastGood = s.lastGood := rfl
@[simp] theorem State.count_port (s : State) (c : CounterName) : (State.count s c).port = s.port := rfl
@[simp] theorem State.count_watches (s : State) (c : CounterName) : (State.count s c).watches = s.watches := rfl
@[simp] theorem State.count_service (s : State) (c : CounterName) : (State.count s c).service = s.service := rfl
@[simp] theorem State.count_engine (s : State) (c : CounterName) : (State.count s c).engine = s.engine := rfl
@[simp] theorem State.count_events (s : State) (c : CounterName) : (State.count s c).events = s.events := rfl
@[simp] theorem State.count_choices (s : State) (c : CounterName) : (State.count s c).choices = s.choices := rfl
@[simp] theorem State.count_pending (s : State) (c : CounterName) : (State.count s c).pending = s.pending := rfl

/-! ### State.post -/

@[simp] theorem State.post_resetN (s : State) (k : EventKind) (src : Option WatchId) (val : Option Sample) :
    (State.post s k src val).resetN = s.resetN := rfl
@[simp] theorem State.post_ringOut (s : State) (k : EventKind) (src : Option WatchId) (val : Option Sample) :
    (State.post s k src val).ringOut = s.ringOut := rfl
@[simp] theorem State.post_aligner (s : State) (k : EventKind) (src : Option WatchId) (val : Option Sample) :
    (State.post s k src val).aligner = s.aligner := rfl
@[simp] theorem State.post_mapStore (s : State) (k : EventKind) (src : Option WatchId) (val : Option Sample) :
    (State.post s k src val).mapStore = s.mapStore := rfl
@[simp] theorem State.post_lastGood (s : State) (k : EventKind) (src : Option WatchId) (val : Option Sample) :
    (State.post s k src val).lastGood = s.lastGood := rfl
@[simp] theorem State.post_port (s : State) (k : EventKind) (src : Option WatchId) (val : Option Sample) :
    (State.post s k src val).port = s.port := rfl
@[simp] theorem State.post_watches (s : State) (k : EventKind) (src : Option WatchId) (val : Option Sample) :
    (State.post s k src val).watches = s.watches := rfl
@[simp] theorem State.post_service (s : State) (k : EventKind) (src : Option WatchId) (val : Option Sample) :
    (State.post s k src val).service = s.service := rfl
@[simp] theorem State.post_engine (s : State) (k : EventKind) (src : Option WatchId) (val : Option Sample) :
    (State.post s k src val).engine = s.engine := rfl
@[simp] theorem State.post_counters (s : State) (k : EventKind) (src : Option WatchId) (val : Option Sample) :
    (State.post s k src val).counters = s.counters := rfl
@[simp] theorem State.post_choices (s : State) (k : EventKind) (src : Option WatchId) (val : Option Sample) :
    (State.post s k src val).choices = s.choices := rfl
@[simp] theorem State.post_pending (s : State) (k : EventKind) (src : Option WatchId) (val : Option Sample) :
    (State.post s k src val).pending = s.pending := rfl

/-! ### State.draw -/

@[simp] theorem State.draw_resetN (s : State) : (State.draw s).resetN = s.resetN := rfl
@[simp] theorem State.draw_ringOut (s : State) : (State.draw s).ringOut = s.ringOut := rfl
@[simp] theorem State.draw_aligner (s : State) : (State.draw s).aligner = s.aligner := rfl
@[simp] theorem State.draw_mapStore (s : State) : (State.draw s).mapStore = s.mapStore := rfl
@[simp] theorem State.draw_lastGood (s : State) : (State.draw s).lastGood = s.lastGood := rfl
@[simp] theorem State.draw_port (s : State) : (State.draw s).port = s.port := rfl
@[simp] theorem State.draw_watches (s : State) : (State.draw s).watches = s.watches := rfl
@[simp] theorem State.draw_service (s : State) : (State.draw s).service = s.service := rfl
@[simp] theorem State.draw_engine (s : State) : (State.draw s).engine = s.engine := rfl
@[simp] theorem State.draw_events (s : State) : (State.draw s).events = s.events := rfl
@[simp] theorem State.draw_counters (s : State) : (State.draw s).counters = s.counters := rfl
@[simp] theorem State.draw_pending (s : State) : (State.draw s).pending = s.pending := rfl

/-! ### State.withReceive -/

@[simp] theorem State.withReceive_resetN (s : State) (r : Receiving) (q : List TransitPacket) :
    (State.withReceive s r q).resetN = s.resetN := rfl
@[simp] theorem State.withReceive_ringOut (s : State) (r : Receiving) (q : List TransitPacket) :
    (State.withReceive s r q).ringOut = s.ringOut := rfl
@[simp] theorem State.withReceive_aligner (s : State) (r : Receiving) (q : List TransitPacket) :
    (State.withReceive s r q).aligner = s.aligner := rfl
@[simp] theorem State.withReceive_mapStore (s : State) (r : Receiving) (q : List TransitPacket) :
    (State.withReceive s r q).mapStore = s.mapStore := rfl
@[simp] theorem State.withReceive_lastGood (s : State) (r : Receiving) (q : List TransitPacket) :
    (State.withReceive s r q).lastGood = s.lastGood := rfl
@[simp] theorem State.withReceive_port (s : State) (r : Receiving) (q : List TransitPacket) :
    (State.withReceive s r q).port = s.port := rfl
@[simp] theorem State.withReceive_watches (s : State) (r : Receiving) (q : List TransitPacket) :
    (State.withReceive s r q).watches = s.watches := rfl
@[simp] theorem State.withReceive_engine (s : State) (r : Receiving) (q : List TransitPacket) :
    (State.withReceive s r q).engine = s.engine := rfl
@[simp] theorem State.withReceive_events (s : State) (r : Receiving) (q : List TransitPacket) :
    (State.withReceive s r q).events = s.events := rfl
@[simp] theorem State.withReceive_counters (s : State) (r : Receiving) (q : List TransitPacket) :
    (State.withReceive s r q).counters = s.counters := rfl
@[simp] theorem State.withReceive_choices (s : State) (r : Receiving) (q : List TransitPacket) :
    (State.withReceive s r q).choices = s.choices := rfl
@[simp] theorem State.withReceive_pending (s : State) (r : Receiving) (q : List TransitPacket) :
    (State.withReceive s r q).pending = s.pending := rfl

/-! ### State.withEmission -/

@[simp] theorem State.withEmission_resetN (s : State) (e : InEmission) (q : List TransitPacket) :
    (State.withEmission s e q).resetN = s.resetN := rfl
@[simp] theorem State.withEmission_ringOut (s : State) (e : InEmission) (q : List TransitPacket) :
    (State.withEmission s e q).ringOut = s.ringOut := rfl
@[simp] theorem State.withEmission_aligner (s : State) (e : InEmission) (q : List TransitPacket) :
    (State.withEmission s e q).aligner = s.aligner := rfl
@[simp] theorem State.withEmission_mapStore (s : State) (e : InEmission) (q : List TransitPacket) :
    (State.withEmission s e q).mapStore = s.mapStore := rfl
@[simp] theorem State.withEmission_lastGood (s : State) (e : InEmission) (q : List TransitPacket) :
    (State.withEmission s e q).lastGood = s.lastGood := rfl
@[simp] theorem State.withEmission_port (s : State) (e : InEmission) (q : List TransitPacket) :
    (State.withEmission s e q).port = s.port := rfl
@[simp] theorem State.withEmission_watches (s : State) (e : InEmission) (q : List TransitPacket) :
    (State.withEmission s e q).watches = s.watches := rfl
@[simp] theorem State.withEmission_engine (s : State) (e : InEmission) (q : List TransitPacket) :
    (State.withEmission s e q).engine = s.engine := rfl
@[simp] theorem State.withEmission_events (s : State) (e : InEmission) (q : List TransitPacket) :
    (State.withEmission s e q).events = s.events := rfl
@[simp] theorem State.withEmission_counters (s : State) (e : InEmission) (q : List TransitPacket) :
    (State.withEmission s e q).counters = s.counters := rfl
@[simp] theorem State.withEmission_choices (s : State) (e : InEmission) (q : List TransitPacket) :
    (State.withEmission s e q).choices = s.choices := rfl
@[simp] theorem State.withEmission_pending (s : State) (e : InEmission) (q : List TransitPacket) :
    (State.withEmission s e q).pending = s.pending := rfl

/-! ### State.testEvents -/

@[simp] theorem State.testEvents_resetN (s : State) : (State.testEvents s).resetN = s.resetN := rfl
@[simp] theorem State.testEvents_ringOut (s : State) : (State.testEvents s).ringOut = s.ringOut := rfl
@[simp] theorem State.testEvents_aligner (s : State) : (State.testEvents s).aligner = s.aligner := rfl
@[simp] theorem State.testEvents_mapStore (s : State) : (State.testEvents s).mapStore = s.mapStore := rfl
@[simp] theorem State.testEvents_lastGood (s : State) : (State.testEvents s).lastGood = s.lastGood := rfl
@[simp] theorem State.testEvents_port (s : State) : (State.testEvents s).port = s.port := rfl
@[simp] theorem State.testEvents_watches (s : State) : (State.testEvents s).watches = s.watches := rfl
@[simp] theorem State.testEvents_service (s : State) : (State.testEvents s).service = s.service := rfl
@[simp] theorem State.testEvents_engine (s : State) : (State.testEvents s).engine = s.engine := rfl
@[simp] theorem State.testEvents_counters (s : State) : (State.testEvents s).counters = s.counters := rfl
@[simp] theorem State.testEvents_choices (s : State) : (State.testEvents s).choices = s.choices := rfl
@[simp] theorem State.testEvents_pending (s : State) : (State.testEvents s).pending = s.pending := rfl

/-! ### State.notificationComplete -/

@[simp] theorem State.notificationComplete_resetN (s : State) (c : ClassId) (q : Octet) :
    (State.notificationComplete s c q).resetN = s.resetN := rfl
@[simp] theorem State.notificationComplete_ringOut (s : State) (c : ClassId) (q : Octet) :
    (State.notificationComplete s c q).ringOut = s.ringOut := rfl
@[simp] theorem State.notificationComplete_aligner (s : State) (c : ClassId) (q : Octet) :
    (State.notificationComplete s c q).aligner = s.aligner := rfl
@[simp] theorem State.notificationComplete_mapStore (s : State) (c : ClassId) (q : Octet) :
    (State.notificationComplete s c q).mapStore = s.mapStore := rfl
@[simp] theorem State.notificationComplete_lastGood (s : State) (c : ClassId) (q : Octet) :
    (State.notificationComplete s c q).lastGood = s.lastGood := rfl
@[simp] theorem State.notificationComplete_port (s : State) (c : ClassId) (q : Octet) :
    (State.notificationComplete s c q).port = s.port := rfl
@[simp] theorem State.notificationComplete_watches (s : State) (c : ClassId) (q : Octet) :
    (State.notificationComplete s c q).watches = s.watches := rfl
@[simp] theorem State.notificationComplete_service (s : State) (c : ClassId) (q : Octet) :
    (State.notificationComplete s c q).service = s.service := rfl
@[simp] theorem State.notificationComplete_engine (s : State) (c : ClassId) (q : Octet) :
    (State.notificationComplete s c q).engine = s.engine := rfl
@[simp] theorem State.notificationComplete_counters (s : State) (c : ClassId) (q : Octet) :
    (State.notificationComplete s c q).counters = s.counters := rfl
@[simp] theorem State.notificationComplete_choices (s : State) (c : ClassId) (q : Octet) :
    (State.notificationComplete s c q).choices = s.choices := rfl
@[simp] theorem State.notificationComplete_pending (s : State) (c : ClassId) (q : Octet) :
    (State.notificationComplete s c q).pending = s.pending := rfl

/-! ### State.stepFlywheel -/

@[simp] theorem State.stepFlywheel_resetN (s : State) : (State.stepFlywheel s).resetN = s.resetN := rfl
@[simp] theorem State.stepFlywheel_ringOut (s : State) : (State.stepFlywheel s).ringOut = s.ringOut := rfl
@[simp] theorem State.stepFlywheel_mapStore (s : State) : (State.stepFlywheel s).mapStore = s.mapStore := rfl
@[simp] theorem State.stepFlywheel_lastGood (s : State) : (State.stepFlywheel s).lastGood = s.lastGood := rfl
@[simp] theorem State.stepFlywheel_port (s : State) : (State.stepFlywheel s).port = s.port := rfl
@[simp] theorem State.stepFlywheel_watches (s : State) : (State.stepFlywheel s).watches = s.watches := rfl
@[simp] theorem State.stepFlywheel_service (s : State) : (State.stepFlywheel s).service = s.service := rfl
@[simp] theorem State.stepFlywheel_engine (s : State) : (State.stepFlywheel s).engine = s.engine := rfl
@[simp] theorem State.stepFlywheel_events (s : State) : (State.stepFlywheel s).events = s.events := rfl
@[simp] theorem State.stepFlywheel_counters (s : State) : (State.stepFlywheel s).counters = s.counters := rfl
@[simp] theorem State.stepFlywheel_choices (s : State) : (State.stepFlywheel s).choices = s.choices := rfl
@[simp] theorem State.stepFlywheel_pending (s : State) : (State.stepFlywheel s).pending = s.pending := rfl

/-! ### State.appendReply -/

@[simp] theorem State.appendReply_resetN (s : State) (p : Packet) (isReset : Bool) :
    (State.appendReply s p isReset).resetN = s.resetN := rfl
@[simp] theorem State.appendReply_ringOut (s : State) (p : Packet) (isReset : Bool) :
    (State.appendReply s p isReset).ringOut = s.ringOut := rfl
@[simp] theorem State.appendReply_aligner (s : State) (p : Packet) (isReset : Bool) :
    (State.appendReply s p isReset).aligner = s.aligner := rfl
@[simp] theorem State.appendReply_mapStore (s : State) (p : Packet) (isReset : Bool) :
    (State.appendReply s p isReset).mapStore = s.mapStore := rfl
@[simp] theorem State.appendReply_lastGood (s : State) (p : Packet) (isReset : Bool) :
    (State.appendReply s p isReset).lastGood = s.lastGood := rfl
@[simp] theorem State.appendReply_port (s : State) (p : Packet) (isReset : Bool) :
    (State.appendReply s p isReset).port = s.port := rfl
@[simp] theorem State.appendReply_watches (s : State) (p : Packet) (isReset : Bool) :
    (State.appendReply s p isReset).watches = s.watches := rfl
@[simp] theorem State.appendReply_service (s : State) (p : Packet) (isReset : Bool) :
    (State.appendReply s p isReset).service = s.service := rfl
@[simp] theorem State.appendReply_events (s : State) (p : Packet) (isReset : Bool) :
    (State.appendReply s p isReset).events = s.events := rfl
@[simp] theorem State.appendReply_counters (s : State) (p : Packet) (isReset : Bool) :
    (State.appendReply s p isReset).counters = s.counters := rfl
@[simp] theorem State.appendReply_choices (s : State) (p : Packet) (isReset : Bool) :
    (State.appendReply s p isReset).choices = s.choices := rfl
@[simp] theorem State.appendReply_pending (s : State) (p : Packet) (isReset : Bool) :
    (State.appendReply s p isReset).pending = s.pending := rfl

/-! ### State.writeShadow -/

@[simp] theorem State.writeShadow_resetN (s : State) (first : Nat) (es : List Entry) :
    (State.writeShadow s first es).resetN = s.resetN := rfl
@[simp] theorem State.writeShadow_ringOut (s : State) (first : Nat) (es : List Entry) :
    (State.writeShadow s first es).ringOut = s.ringOut := rfl
@[simp] theorem State.writeShadow_aligner (s : State) (first : Nat) (es : List Entry) :
    (State.writeShadow s first es).aligner = s.aligner := rfl
@[simp] theorem State.writeShadow_lastGood (s : State) (first : Nat) (es : List Entry) :
    (State.writeShadow s first es).lastGood = s.lastGood := rfl
@[simp] theorem State.writeShadow_port (s : State) (first : Nat) (es : List Entry) :
    (State.writeShadow s first es).port = s.port := rfl
@[simp] theorem State.writeShadow_watches (s : State) (first : Nat) (es : List Entry) :
    (State.writeShadow s first es).watches = s.watches := rfl
@[simp] theorem State.writeShadow_service (s : State) (first : Nat) (es : List Entry) :
    (State.writeShadow s first es).service = s.service := rfl
@[simp] theorem State.writeShadow_engine (s : State) (first : Nat) (es : List Entry) :
    (State.writeShadow s first es).engine = s.engine := rfl
@[simp] theorem State.writeShadow_events (s : State) (first : Nat) (es : List Entry) :
    (State.writeShadow s first es).events = s.events := rfl
@[simp] theorem State.writeShadow_counters (s : State) (first : Nat) (es : List Entry) :
    (State.writeShadow s first es).counters = s.counters := rfl
@[simp] theorem State.writeShadow_choices (s : State) (first : Nat) (es : List Entry) :
    (State.writeShadow s first es).choices = s.choices := rfl
@[simp] theorem State.writeShadow_pending (s : State) (first : Nat) (es : List Entry) :
    (State.writeShadow s first es).pending = s.pending := rfl

/-! ### State.applySettings -/

@[simp] theorem State.applySettings_resetN (s : State) (n : NodeSettings) :
    (State.applySettings s n).resetN = s.resetN := rfl
@[simp] theorem State.applySettings_mapStore (s : State) (n : NodeSettings) :
    (State.applySettings s n).mapStore = s.mapStore := rfl
@[simp] theorem State.applySettings_lastGood (s : State) (n : NodeSettings) :
    (State.applySettings s n).lastGood = s.lastGood := rfl
@[simp] theorem State.applySettings_watches (s : State) (n : NodeSettings) :
    (State.applySettings s n).watches = s.watches := rfl
@[simp] theorem State.applySettings_service (s : State) (n : NodeSettings) :
    (State.applySettings s n).service = s.service := rfl
@[simp] theorem State.applySettings_engine (s : State) (n : NodeSettings) :
    (State.applySettings s n).engine = s.engine := rfl
@[simp] theorem State.applySettings_counters (s : State) (n : NodeSettings) :
    (State.applySettings s n).counters = s.counters := rfl
@[simp] theorem State.applySettings_choices (s : State) (n : NodeSettings) :
    (State.applySettings s n).choices = s.choices := rfl
@[simp] theorem State.applySettings_pending (s : State) (n : NodeSettings) :
    (State.applySettings s n).pending = s.pending := rfl

/-! ### State.writeWatch -/

@[simp] theorem State.writeWatch_resetN (s : State) (i : WatchId) (u : WatchSetup) :
    (State.writeWatch s i u).resetN = s.resetN := rfl
@[simp] theorem State.writeWatch_aligner (s : State) (i : WatchId) (u : WatchSetup) :
    (State.writeWatch s i u).aligner = s.aligner := rfl
@[simp] theorem State.writeWatch_mapStore (s : State) (i : WatchId) (u : WatchSetup) :
    (State.writeWatch s i u).mapStore = s.mapStore := rfl
@[simp] theorem State.writeWatch_lastGood (s : State) (i : WatchId) (u : WatchSetup) :
    (State.writeWatch s i u).lastGood = s.lastGood := rfl
@[simp] theorem State.writeWatch_port (s : State) (i : WatchId) (u : WatchSetup) :
    (State.writeWatch s i u).port = s.port := rfl
@[simp] theorem State.writeWatch_service (s : State) (i : WatchId) (u : WatchSetup) :
    (State.writeWatch s i u).service = s.service := rfl
@[simp] theorem State.writeWatch_engine (s : State) (i : WatchId) (u : WatchSetup) :
    (State.writeWatch s i u).engine = s.engine := rfl
@[simp] theorem State.writeWatch_events (s : State) (i : WatchId) (u : WatchSetup) :
    (State.writeWatch s i u).events = s.events := rfl
@[simp] theorem State.writeWatch_counters (s : State) (i : WatchId) (u : WatchSetup) :
    (State.writeWatch s i u).counters = s.counters := rfl
@[simp] theorem State.writeWatch_choices (s : State) (i : WatchId) (u : WatchSetup) :
    (State.writeWatch s i u).choices = s.choices := rfl
@[simp] theorem State.writeWatch_pending (s : State) (i : WatchId) (u : WatchSetup) :
    (State.writeWatch s i u).pending = s.pending := rfl

/-! ### State.queueCopy -/

@[simp] theorem State.queueCopy_resetN (s : State) (f : Frame) (c : FrameClass) :
    (State.queueCopy s f c).resetN = s.resetN := rfl
@[simp] theorem State.queueCopy_aligner (s : State) (f : Frame) (c : FrameClass) :
    (State.queueCopy s f c).aligner = s.aligner := rfl
@[simp] theorem State.queueCopy_mapStore (s : State) (f : Frame) (c : FrameClass) :
    (State.queueCopy s f c).mapStore = s.mapStore := rfl
@[simp] theorem State.queueCopy_lastGood (s : State) (f : Frame) (c : FrameClass) :
    (State.queueCopy s f c).lastGood = s.lastGood := rfl
@[simp] theorem State.queueCopy_port (s : State) (f : Frame) (c : FrameClass) :
    (State.queueCopy s f c).port = s.port := rfl
@[simp] theorem State.queueCopy_watches (s : State) (f : Frame) (c : FrameClass) :
    (State.queueCopy s f c).watches = s.watches := rfl
@[simp] theorem State.queueCopy_service (s : State) (f : Frame) (c : FrameClass) :
    (State.queueCopy s f c).service = s.service := rfl
@[simp] theorem State.queueCopy_engine (s : State) (f : Frame) (c : FrameClass) :
    (State.queueCopy s f c).engine = s.engine := rfl
@[simp] theorem State.queueCopy_events (s : State) (f : Frame) (c : FrameClass) :
    (State.queueCopy s f c).events = s.events := rfl
@[simp] theorem State.queueCopy_counters (s : State) (f : Frame) (c : FrameClass) :
    (State.queueCopy s f c).counters = s.counters := rfl
@[simp] theorem State.queueCopy_choices (s : State) (f : Frame) (c : FrameClass) :
    (State.queueCopy s f c).choices = s.choices := rfl
@[simp] theorem State.queueCopy_pending (s : State) (f : Frame) (c : FrameClass) :
    (State.queueCopy s f c).pending = s.pending := rfl

/-! ### State.steppedForSubstitute -/

@[simp] theorem State.steppedForSubstitute_resetN (s : State) :
    (State.steppedForSubstitute s).resetN = s.resetN := rfl
@[simp] theorem State.steppedForSubstitute_mapStore (s : State) :
    (State.steppedForSubstitute s).mapStore = s.mapStore := rfl
@[simp] theorem State.steppedForSubstitute_lastGood (s : State) :
    (State.steppedForSubstitute s).lastGood = s.lastGood := rfl
@[simp] theorem State.steppedForSubstitute_port (s : State) : (State.steppedForSubstitute s).port = s.port := rfl
@[simp] theorem State.steppedForSubstitute_watches (s : State) :
    (State.steppedForSubstitute s).watches = s.watches := rfl
@[simp] theorem State.steppedForSubstitute_service (s : State) :
    (State.steppedForSubstitute s).service = s.service := rfl
@[simp] theorem State.steppedForSubstitute_engine (s : State) :
    (State.steppedForSubstitute s).engine = s.engine := rfl
@[simp] theorem State.steppedForSubstitute_events (s : State) :
    (State.steppedForSubstitute s).events = s.events := rfl
@[simp] theorem State.steppedForSubstitute_counters (s : State) :
    (State.steppedForSubstitute s).counters = s.counters := rfl
@[simp] theorem State.steppedForSubstitute_choices (s : State) :
    (State.steppedForSubstitute s).choices = s.choices := rfl
@[simp] theorem State.steppedForSubstitute_pending (s : State) :
    (State.steppedForSubstitute s).pending = s.pending := rfl

/-! ### State.place -/

@[simp] theorem State.place_resetN (s : State) (f : FrameSource) (add : LocalSamples) (g : Segment) (e : SegmentEnd) :
    (State.place s f add g e).resetN = s.resetN := rfl
@[simp] theorem State.place_aligner (s : State) (f : FrameSource) (add : LocalSamples) (g : Segment) (e : SegmentEnd) :
    (State.place s f add g e).aligner = s.aligner := rfl
@[simp] theorem State.place_mapStore (s : State) (f : FrameSource) (add : LocalSamples) (g : Segment) (e : SegmentEnd) :
    (State.place s f add g e).mapStore = s.mapStore := rfl
@[simp] theorem State.place_port (s : State) (f : FrameSource) (add : LocalSamples) (g : Segment) (e : SegmentEnd) :
    (State.place s f add g e).port = s.port := rfl
@[simp] theorem State.place_watches (s : State) (f : FrameSource) (add : LocalSamples) (g : Segment) (e : SegmentEnd) :
    (State.place s f add g e).watches = s.watches := rfl
@[simp] theorem State.place_service (s : State) (f : FrameSource) (add : LocalSamples) (g : Segment) (e : SegmentEnd) :
    (State.place s f add g e).service = s.service := rfl
@[simp] theorem State.place_engine (s : State) (f : FrameSource) (add : LocalSamples) (g : Segment) (e : SegmentEnd) :
    (State.place s f add g e).engine = s.engine := rfl
@[simp] theorem State.place_events (s : State) (f : FrameSource) (add : LocalSamples) (g : Segment) (e : SegmentEnd) :
    (State.place s f add g e).events = s.events := rfl
@[simp] theorem State.place_counters (s : State) (f : FrameSource) (add : LocalSamples) (g : Segment) (e : SegmentEnd) :
    (State.place s f add g e).counters = s.counters := rfl
@[simp] theorem State.place_choices (s : State) (f : FrameSource) (add : LocalSamples) (g : Segment) (e : SegmentEnd) :
    (State.place s f add g e).choices = s.choices := rfl
@[simp] theorem State.place_pending (s : State) (f : FrameSource) (add : LocalSamples) (g : Segment) (e : SegmentEnd) :
    (State.place s f add g e).pending = s.pending := rfl

/-! ### State.warmReset -/

@[simp] theorem State.warmReset_resetN (s : State) : (State.warmReset s).resetN = s.resetN := rfl
@[simp] theorem State.warmReset_ringOut (s : State) : (State.warmReset s).ringOut = s.ringOut := rfl
@[simp] theorem State.warmReset_aligner (s : State) : (State.warmReset s).aligner = s.aligner := rfl
@[simp] theorem State.warmReset_lastGood (s : State) : (State.warmReset s).lastGood = s.lastGood := rfl
@[simp] theorem State.warmReset_port (s : State) : (State.warmReset s).port = s.port := rfl
@[simp] theorem State.warmReset_watches (s : State) : (State.warmReset s).watches = s.watches := rfl
@[simp] theorem State.warmReset_counters (s : State) : (State.warmReset s).counters = s.counters := rfl
@[simp] theorem State.warmReset_choices (s : State) : (State.warmReset s).choices = s.choices := rfl
@[simp] theorem State.warmReset_pending (s : State) : (State.warmReset s).pending = s.pending := rfl

/-! ### State.heldInReset -/

@[simp] theorem State.heldInReset_aligner (s : State) : (State.heldInReset s).aligner = s.aligner := rfl
@[simp] theorem State.heldInReset_mapStore (s : State) : (State.heldInReset s).mapStore = s.mapStore := rfl
@[simp] theorem State.heldInReset_lastGood (s : State) : (State.heldInReset s).lastGood = s.lastGood := rfl
@[simp] theorem State.heldInReset_watches (s : State) : (State.heldInReset s).watches = s.watches := rfl
@[simp] theorem State.heldInReset_service (s : State) : (State.heldInReset s).service = s.service := rfl
@[simp] theorem State.heldInReset_engine (s : State) : (State.heldInReset s).engine = s.engine := rfl
@[simp] theorem State.heldInReset_events (s : State) : (State.heldInReset s).events = s.events := rfl
@[simp] theorem State.heldInReset_counters (s : State) : (State.heldInReset s).counters = s.counters := rfl
@[simp] theorem State.heldInReset_choices (s : State) : (State.heldInReset s).choices = s.choices := rfl
@[simp] theorem State.heldInReset_pending (s : State) : (State.heldInReset s).pending = s.pending := rfl

/-! ### What the updates write -/

@[simp] theorem State.count_counters (s : State) (c : CounterName) :
    (State.count s c).counters = s.counters.set c.index (raise16 s.counters[c.index]) := rfl

@[simp] theorem State.post_events (s : State) (k : EventKind) (src : Option WatchId) (val : Option Sample) :
    (State.post s k src val).events =
      EventUnit.post s.aligner.flywheel.superframe s.engine.address k src val s.events := rfl

@[simp] theorem State.draw_choices (s : State) : (State.draw s).choices = s.choices + 1 := rfl

@[simp] theorem State.withReceive_receiving (s : State) (r : Receiving) (q : List TransitPacket) :
    (State.withReceive s r q).service.receiving = r := rfl

@[simp] theorem State.withReceive_transit (s : State) (r : Receiving) (q : List TransitPacket) :
    (State.withReceive s r q).service.transit = q := rfl

@[simp] theorem State.withReceive_emission (s : State) (r : Receiving) (q : List TransitPacket) :
    (State.withReceive s r q).service.emission = s.service.emission := rfl

@[simp] theorem State.withReceive_waitCount (s : State) (r : Receiving) (q : List TransitPacket) :
    (State.withReceive s r q).service.waitCount = s.service.waitCount := rfl

@[simp] theorem State.withReceive_openChoice (s : State) (r : Receiving) (q : List TransitPacket) :
    (State.withReceive s r q).service.openChoice = s.service.openChoice := rfl

@[simp] theorem State.withReceive_nextRequest (s : State) (r : Receiving) (q : List TransitPacket) :
    (State.withReceive s r q).service.nextRequest = s.service.nextRequest := rfl

@[simp] theorem State.withEmission_emission (s : State) (e : InEmission) (q : List TransitPacket) :
    (State.withEmission s e q).service.emission = e := rfl

@[simp] theorem State.withEmission_transit (s : State) (e : InEmission) (q : List TransitPacket) :
    (State.withEmission s e q).service.transit = q := rfl

@[simp] theorem State.withEmission_receiving (s : State) (e : InEmission) (q : List TransitPacket) :
    (State.withEmission s e q).service.receiving = s.service.receiving := rfl

@[simp] theorem State.withEmission_waitCount (s : State) (e : InEmission) (q : List TransitPacket) :
    (State.withEmission s e q).service.waitCount = s.service.waitCount := rfl

@[simp] theorem State.withEmission_openChoice (s : State) (e : InEmission) (q : List TransitPacket) :
    (State.withEmission s e q).service.openChoice = s.service.openChoice := rfl

@[simp] theorem State.withEmission_nextRequest (s : State) (e : InEmission) (q : List TransitPacket) :
    (State.withEmission s e q).service.nextRequest = s.service.nextRequest := rfl

end Sys2Proof.Machine
end

