-- ==== Sys2Proof/Laws/Events.lean ====
section
/-! SUPPORT. The Event Unit: what each of its operations can do (R154 to R171), and that each keeps `EventUnit.Sound`. -/

namespace Sys2Proof.Machine

/-! ### Reading a vector after a write -/

theorem Vector.set_fin {α : Type} {n : Nat} (v : Vector α n) (c d : Fin n) (x : α) :
    (v.set c x)[d] = if c = d then x else v[d] := by
  rw [Fin.getElem_fin, Vector.getElem_set]
  by_cases h : c = d
  · rw [if_pos h, if_pos (congrArg Fin.val h)]
  · rw [if_neg h, if_neg (fun hh => h (Fin.ext hh))]; rfl

/-! ### Counting the held records -/

theorem list_sum_set (l : List Nat) (n x : Nat) (h : n < l.length) : (l.set n x).sum + l[n] = l.sum + x := by
  induction l generalizing n with
  | nil => simp at h
  | cons a l ih =>
    cases n with
    | zero => simp; omega
    | succ n => simp at h; simp; have := ih n h; omega

/-- Replacing the queue of one class changes the number of held records by that queue alone (R153). -/
theorem heldRecords_set (ev : EventUnit) (c : ClassId) (q : List EventRecord) :
    (((ev.queues.set c q).toList.map List.length).sum) + ev.queues[c].length = EventUnit.heldRecords ev + q.length := by
  have hl : c.val < (ev.queues.toList.map List.length).length := by simp
  have h := list_sum_set (ev.queues.toList.map List.length) c.val q.length hl
  simp only [EventUnit.heldRecords]
  rw [Vector.toList_set, List.map_set]
  simpa using h

/-! ### A post -/

/-- A record in a queue into which a post is coalesced is the newest one, and no notification carries it (R154). -/
theorem EventUnit.coalesceWith_some (ev : EventUnit) (c : ClassId) (k : EventKind) (src : Option WatchId) (r : EventRecord)
    (h : EventUnit.coalesceWith ev c k src = some r) :
    EventKind.coalesces k = true ∧ EventUnit.newestCarried ev c = false ∧ ev.queues[c].getLast? = some r ∧ r.kind = k ∧
      r.source = src := by
  unfold EventUnit.coalesceWith at h
  split at h
  · rename_i hc
    split at h
    · rename_i r' hr
      split at h
      · rename_i he
        cases h
        simp only [Bool.and_eq_true, Bool.not_eq_true'] at hc
        exact ⟨hc.1, hc.2, hr, he.1, he.2⟩
      · cases h
    · cases h
  · cases h

/-- The four cases of a post (R154), in their order. -/
theorem EventUnit.record_cases (ev : EventUnit) (sf : Superframe) (k : EventKind) (src : Option WatchId)
    (val : Option Sample) :
    (ev.kinds[k.index].enabled = false ∧ EventUnit.record ev sf k src val = ev) ∨
    (ev.kinds[k.index].enabled = true ∧ ∃ r, EventUnit.coalesceWith ev ev.kinds[k.index].cls k src = some r ∧
      EventUnit.record ev sf k src val =
        { ev with
          queues := ev.queues.set ev.kinds[k.index].cls
            (ev.queues[ev.kinds[k.index].cls].dropLast ++ [{ r with occurrences := raise8 r.occurrences }]) }) ∨
    (ev.kinds[k.index].enabled = true ∧ EventUnit.coalesceWith ev ev.kinds[k.index].cls k src = none ∧ 0 < ev.free ∧
      EventUnit.record ev sf k src val =
        { ev with
          free := ev.free - 1
          queues := ev.queues.set ev.kinds[k.index].cls
            (ev.queues[ev.kinds[k.index].cls] ++
              [{ kind := k, source := src, superframe := sf, occurrences := 1#8, value := val }]) }) ∨
    (ev.kinds[k.index].enabled = true ∧ EventUnit.coalesceWith ev ev.kinds[k.index].cls k src = none ∧ ev.free = 0 ∧
      EventUnit.record ev sf k src val =
        { ev with lost := ev.lost.set ev.kinds[k.index].cls (raise8 ev.lost[ev.kinds[k.index].cls]) }) := by
  unfold EventUnit.record
  simp only
  split
  · rename_i h; exact .inl ⟨by simpa using h, rfl⟩
  · rename_i h
    have he : ev.kinds[k.index].enabled = true := by simpa using h
    split
    · rename_i r hr; exact .inr (.inl ⟨he, r, hr, rfl⟩)
    · rename_i hr
      split
      · rename_i hf; exact .inr (.inr (.inl ⟨he, hr, hf, rfl⟩))
      · rename_i hf; exact .inr (.inr (.inr ⟨he, hr, by omega, rfl⟩))

theorem raise8_le (n : BitVec 8) : n.toNat ≤ (raise8 n).toNat := by
  unfold raise8
  split
  · exact le_refl _
  · rename_i h
    have : n.toNat ≠ 255 := fun hh => h (BitVec.eq_of_toNat_eq (by simpa using hh))
    have := n.isLt
    simp [BitVec.toNat_add]; omega

/-- What `EventUnit.Sound` asks of one class. -/
theorem InService.sound_iff (v : InService) (q : List EventRecord) (n : BitVec 8) :
    InService.sound v q n = true ↔
      1 ≤ v.carried ∧ v.carried ≤ 4 ∧ v.carried ≤ q.length ∧ v.snapshot.toNat ≤ n.toNat ∧ v.retries ≤ 4 ∧
        (∀ t, v.timer = some t → t ≤ 4080) ∧
        v.packet.params = [v.snapshot, octetOf v.carried] ++ (q.take v.carried).flatMap EventRecord.octets := by
  simp only [InService.sound, Bool.and_eq_true, decide_eq_true_eq, Option.all_eq_true, and_assoc]

/-- A class stays sound when its queue keeps its carried records and its lost count does not fall. -/
theorem InService.sound_mono (v : InService) (q q' : List EventRecord) (n n' : BitVec 8)
    (hq : v.carried ≤ q.length → v.carried ≤ q'.length ∧ q'.take v.carried = q.take v.carried)
    (hn : n.toNat ≤ n'.toNat) (h : InService.sound v q n = true) : InService.sound v q' n' = true := by
  rw [InService.sound_iff] at h ⊢
  obtain ⟨h1, h2, h3, h4, h5, h6, h7⟩ := h
  exact ⟨h1, h2, (hq h3).1, by omega, h5, h6, by rw [(hq h3).2]; exact h7⟩

/-- A queue replaced by one that keeps its carried records, with the free records moved the other way. -/
theorem EventUnit.setQueue_sound (ev : EventUnit) (d : ClassId) (q : List EventRecord) (n : Nat) (h : EventUnit.Sound ev)
    (hn : n + q.length = ev.free + ev.queues[d].length)
    (hq : ∀ v, ev.service[d] = some v → v.carried ≤ ev.queues[d].length →
      v.carried ≤ q.length ∧ q.take v.carried = ev.queues[d].take v.carried) :
    EventUnit.Sound { ev with free := n, queues := ev.queues.set d q } := by
  obtain ⟨h1, h2, h3, h4, h5⟩ := h
  refine ⟨?_, fun c => ?_, h3, h4, h5⟩
  · have := heldRecords_set ev d q
    show n + _ = 64
    simp only [EventUnit.heldRecords] at this h1 ⊢
    omega
  · have := h2 c
    show (ev.service[c]).all (fun v => InService.sound v (ev.queues.set d q)[c] ev.lost[c]) = true
    rw [Option.all_eq_true] at this ⊢
    intro v hv
    refine InService.sound_mono v _ _ _ _ (fun hl => ?_) (le_refl _) (this v hv)
    rw [Vector.set_fin]
    split
    · rename_i hc
      subst hc
      exact hq v hv hl
    · exact ⟨hl, rfl⟩

/-- A lost count that rises. -/
theorem EventUnit.setLost_sound (ev : EventUnit) (d : ClassId) (n : BitVec 8) (h : EventUnit.Sound ev)
    (hn : (ev.lost[d]).toNat ≤ n.toNat) : EventUnit.Sound { ev with lost := ev.lost.set d n } := by
  obtain ⟨h1, h2, h3, h4, h5⟩ := h
  refine ⟨h1, fun c => ?_, h3, h4, h5⟩
  have := h2 c
  show (ev.service[c]).all (fun v => InService.sound v ev.queues[c] (ev.lost.set d n)[c]) = true
  rw [Option.all_eq_true] at this ⊢
  intro v hv
  refine InService.sound_mono v _ _ _ _ (⟨·, rfl⟩) ?_ (this v hv)
  rw [Vector.set_fin]
  split
  · rename_i hc
    subst hc
    exact hn
  · exact le_refl _

theorem EventUnit.record_sound (ev : EventUnit) (sf : Superframe) (k : EventKind) (src : Option WatchId)
    (val : Option Sample) (h : EventUnit.Sound ev) : EventUnit.Sound (EventUnit.record ev sf k src val) := by
  rcases EventUnit.record_cases ev sf k src val with ⟨_, e⟩ | ⟨_, r, hr, e⟩ | ⟨_, _, hf, e⟩ | ⟨_, _, _, e⟩ <;> rw [e]
  · exact h
  · have hlast := (EventUnit.coalesceWith_some _ _ _ _ _ hr).2.2.1
    have hne : ev.queues[ev.kinds[k.index].cls] ≠ [] := by intro hn; rw [hn] at hlast; cases hlast
    have hpos := List.length_pos_of_ne_nil hne
    have hnew := (EventUnit.coalesceWith_some _ _ _ _ _ hr).2.1
    refine EventUnit.setQueue_sound ev _ _ ev.free h ?_ (fun v hs hv => ?_)
    · rw [List.length_append, List.length_dropLast, List.length_singleton]; omega
    · have hlt : v.carried ≤ (ev.queues[ev.kinds[k.index].cls].dropLast).length := by
        unfold EventUnit.newestCarried at hnew
        rw [hs] at hnew
        have := of_decide_eq_false hnew
        rw [List.length_dropLast]; omega
      refine ⟨by rw [List.length_append]; omega, ?_⟩
      rw [List.take_append_of_le_length hlt, List.dropLast_eq_take, List.take_take, Nat.min_eq_left]
      rw [List.length_dropLast] at hlt; exact hlt
  · refine EventUnit.setQueue_sound ev _ _ (ev.free - 1) h ?_ (fun v _ hv => ?_)
    · rw [List.length_append, List.length_singleton]; omega
    · exact ⟨by rw [List.length_append]; omega, List.take_append_of_le_length hv⟩
  · exact EventUnit.setLost_sound ev _ _ h (raise8_le _)

/-! ### Replacing one class's service state -/

/-- The service state of one class replaced by a sound one, or by none, and the slot kept fit for it. -/
theorem EventUnit.setService_sound (ev : EventUnit) (c : ClassId) (o : Option InService) (h : EventUnit.Sound ev)
    (ho : o.all (fun v => InService.sound v ev.queues[c] ev.lost[c]) = true) (slot : Option (ClassId × Packet))
    (hs : slot.all (fun x => ((ev.service.set c o)[x.1]).any fun v => v.packet.sequence = x.2.sequence) = true) :
    EventUnit.Sound { ev with service := ev.service.set c o, slot := slot } := by
  obtain ⟨h1, h2, h3, h4, _⟩ := h
  refine ⟨h1, fun d => ?_, h3, h4, hs⟩
  show ((ev.service.set c o)[d]).all (fun v => InService.sound v ev.queues[d] ev.lost[d]) = true
  rw [Vector.set_fin]
  split
  · rename_i hd
    subst hd; exact ho
  · exact h2 d

/-- A slot that was fit stays fit when the class's service state keeps its sequence. -/
theorem slot_fit_set (ev : EventUnit) (c : ClassId) (v v' : InService) (hv : ev.service[c] = some v)
    (hq : v'.packet.sequence = v.packet.sequence)
    (h : ev.slot.all (fun x => ev.service[x.1].any fun v => v.packet.sequence = x.2.sequence) = true) :
    ev.slot.all (fun x => ((ev.service.set c (some v'))[x.1]).any fun v => v.packet.sequence = x.2.sequence) = true := by
  rw [Option.all_eq_true] at h ⊢
  intro x hx
  obtain ⟨d, p⟩ := x
  have hp := h ⟨d, p⟩ hx
  simp only at hp ⊢
  rw [Vector.set_fin]
  split
  · rename_i hc
    subst hc
    rw [hv] at hp
    simpa [hq] using hp
  · exact hp

/-! ### The test of R157 -/

/-- An eligible class is not in service and holds a record (R157). -/
theorem EventUnit.firstEligible_some (ev : EventUnit) (c : ClassId) (h : EventUnit.firstEligible ev = some c) :
    ev.service[c] = none ∧ ev.masked[c] = false ∧ ev.queues[c] ≠ [] := by
  unfold EventUnit.firstEligible at h
  have hp := List.find?_some h
  have hm := List.mem_takeWhile_imp (List.mem_of_find?_eq_some h)
  simp at hp hm
  exact ⟨hm, hp.1, hp.2⟩

/-- Everything the test can do: nothing, a resend, a new notification. -/
theorem EventUnit.test_cases (addr : Option (BitVec 6)) (ev : EventUnit) :
    EventUnit.test addr ev = ev ∨
    (∃ c v, ev.slot = none ∧ EventUnit.firstResend ev = some c ∧ ev.service[c] = some v ∧ v.resendDue = true ∧
      EventUnit.test addr ev =
        { ev with slot := some (c, Packet.repeated v.packet)
                  service := ev.service.set c (some { v with resendDue := false }) }) ∨
    (∃ c a, ev.slot = none ∧ EventUnit.firstResend ev = none ∧ ev.notifier = .active ∧ addr = some a ∧
      EventUnit.firstEligible ev = some c ∧ EventUnit.test addr ev = EventUnit.build ev a c) := by
  unfold EventUnit.test
  split
  · exact .inl rfl
  · rename_i hs
    split
    · rename_i c hc
      have hr := List.find?_some hc
      cases hv : ev.service[c] with
      | none => rw [hv] at hr; simp at hr
      | some v =>
        rw [hv] at hr
        exact .inr (.inl ⟨c, v, hs, hc, hv, by simpa using hr, by simp only [EventUnit.fillResend, hv]⟩)
    · rename_i hr
      split
      · rename_i a hn
        split
        · rename_i c hc; exact .inr (.inr ⟨c, a, hs, hr, hn, rfl, hc, rfl⟩)
        · exact .inl rfl
      · exact .inl rfl

theorem EventUnit.build_sound (ev : EventUnit) (a : BitVec 6) (c : ClassId) (hq : ev.queues[c] ≠ [])
    (h : EventUnit.Sound ev) : EventUnit.Sound (EventUnit.build ev a c) := by
  have := EventUnit.setService_sound ev c
    (some { packet := EventUnit.notification ev a c, carried := (ev.queues[c].take 4).length
            snapshot := ev.lost[c], retries := 0, timer := none, resendDue := false }) h ?_
    (some (c, EventUnit.notification ev a c)) ?_
  · exact this
  · have := List.length_pos_of_ne_nil hq
    rw [Option.all_some, InService.sound_iff]
    have hl : (ev.queues[c].take 4).length = min 4 ev.queues[c].length := List.length_take
    have hp : (ev.queues[c].take (ev.queues[c].take 4).length) = ev.queues[c].take 4 := by
      rw [hl, List.take_eq_take_iff]; omega
    refine ⟨by show 1 ≤ (ev.queues[c].take 4).length; omega, by show (ev.queues[c].take 4).length ≤ 4; omega,
      by show (ev.queues[c].take 4).length ≤ _; omega, le_refl _, Nat.zero_le _, (fun t ht => nomatch ht), ?_⟩
    show _ ++ _ = _ ++ List.flatMap _ (List.take (ev.queues[c].take 4).length _)
    rw [hp]
  · simp

theorem EventUnit.test_sound (addr : Option (BitVec 6)) (ev : EventUnit) (h : EventUnit.Sound ev) :
    EventUnit.Sound (EventUnit.test addr ev) := by
  rcases EventUnit.test_cases addr ev with e | ⟨c, v, _, _, hv, _, e⟩ | ⟨c, a, _, _, _, _, hc, e⟩ <;> rw [e]
  · exact h
  · have hsv := h.2.1 c
    rw [hv, Option.all_some, InService.sound_iff] at hsv
    refine EventUnit.setService_sound ev c _ h ?_ _ ?_
    · rw [Option.all_some, InService.sound_iff]; exact hsv
    · simp [Packet.repeated]
  · exact EventUnit.build_sound ev a c (EventUnit.firstEligible_some ev c hc).2.2 h

theorem EventUnit.post_sound (sf : Superframe) (addr : Option (BitVec 6)) (k : EventKind) (src : Option WatchId)
    (val : Option Sample) (ev : EventUnit) (h : EventUnit.Sound ev) :
    EventUnit.Sound (EventUnit.post sf addr k src val ev) :=
  EventUnit.test_sound addr _ (EventUnit.record_sound ev sf k src val h)

/-! ### Acknowledgement and release -/

theorem rotated_order (order : List ClassId) (c : ClassId) (h : order.length = 8 ∧ order.Nodup) :
    (order.filter (· ≠ c) ++ [c]).length = 8 ∧ (order.filter (· ≠ c) ++ [c]).Nodup := by
  have hn : (order.filter (· ≠ c) ++ [c]).Nodup := by
    refine List.Nodup.append (h.2.filter _) (List.nodup_singleton c) ?_
    simp [List.disjoint_singleton]
  refine ⟨?_, hn⟩
  have hm : c ∈ order := by
    have : order.toFinset = Finset.univ := by
      apply Finset.eq_univ_of_card
      rw [List.toFinset_card_of_nodup h.2, h.1]; rfl
    have hc : c ∈ order.toFinset := by rw [this]; exact Finset.mem_univ c
    simpa using hc
  have hcount : order.count c = 1 := List.count_eq_one_of_mem h.2 hm
  have hl := List.length_eq_countP_add_countP (fun x => decide (x = c)) (l := order)
  rw [List.length_append, List.length_singleton]
  have h1 : (order.filter (· ≠ c)).length = order.countP (fun x => decide (x ≠ c)) := by
    rw [List.countP_eq_length_filter]
  have h2 : order.countP (fun x => decide (x = c)) = 1 := by
    rw [← hcount, List.count]
    congr 1
  have h3 : order.countP (fun x => decide (x ≠ c)) = order.countP (fun a => decide ¬ (decide (a = c)) = true) := by
    congr 1; funext a; simp
  rw [h1, h3]
  omega

theorem EventUnit.acknowledge_sound (ev : EventUnit) (c : ClassId) (v : InService) (h : EventUnit.Sound ev)
    (hv : ev.service[c] = some v) : EventUnit.Sound (EventUnit.acknowledge ev c v) := by
  obtain ⟨h1, h2, h3, h4, h5⟩ := h
  have hsv := h2 c
  rw [hv, Option.all_some, InService.sound_iff] at hsv
  refine ⟨?_, fun d => ?_, ?_, ?_, ?_⟩
  · have := heldRecords_set ev c (ev.queues[c].drop v.carried)
    show ev.free + (ev.queues[c].take v.carried).length + _ = 64
    simp only [EventUnit.heldRecords, EventUnit.acknowledge, List.length_drop, List.length_take] at this h1 ⊢
    omega
  · show ((ev.service.set c none)[d]).all (fun w => InService.sound w
      (ev.queues.set c (ev.queues[c].drop v.carried))[d] (ev.lost.set c (ev.lost[c] - v.snapshot))[d]) = true
    rw [Vector.set_fin, Vector.set_fin, Vector.set_fin]
    by_cases hd : c = d
    · simp only [if_pos hd]; rfl
    · rw [if_neg hd, if_neg hd, if_neg hd]
      exact h2 d
  · show (match ev.orderMode with | .fixed => ev.order | .rotate => ev.order.filter (· ≠ c) ++ [c]).length = 8 ∧
      (match ev.orderMode with | .fixed => ev.order | .rotate => ev.order.filter (· ≠ c) ++ [c]).Nodup
    split
    · exact h3
    · exact rotated_order ev.order c h3
  · intro hm
    have hm' : ev.orderMode = .fixed := hm
    show (match ev.orderMode with | .fixed => ev.order | .rotate => ev.order.filter (· ≠ c) ++ [c]) = fixedOrder
    rw [hm']
    exact h4 hm'
  · show (match ev.slot with | some (d, p) => if d = c then none else some (d, p) | none => none).all _ = true
    cases hs : ev.slot with
    | none => rfl
    | some x =>
      obtain ⟨d, p⟩ := x
      simp only
      split
      · rfl
      · rename_i hd
        rw [hs] at h5
        simp only [Option.all_some] at h5 ⊢
        show ((ev.service.set c none)[d]).any _ = true
        rw [Vector.set_fin, if_neg (fun hh => hd hh.symm)]
        exact h5

/-- An ACK that matches names a class in service with its sequence (R162). -/
theorem EventUnit.ackMatch_some (ev : EventUnit) (o q : Octet) (c : ClassId) (v : InService)
    (h : EventUnit.ackMatch ev o q = some (c, v)) :
    ev.service[c] = some v ∧ v.packet.sequence = q ∧ c.val = o.toNat := by
  unfold EventUnit.ackMatch at h
  split at h
  · split at h
    · split at h
      · cases h
        rename_i hv hq
        exact ⟨hv, hq, rfl⟩
      · cases h
    · cases h
  · cases h

/-- Leaving QUIET changes the notifier state alone (R167). -/
theorem EventUnit.leaveQuiet_frame (addr : Option (BitVec 6)) (ev : EventUnit) :
    EventUnit.leaveQuiet addr ev = { ev with notifier := (EventUnit.leaveQuiet addr ev).notifier } := by
  unfold EventUnit.leaveQuiet; split <;> rfl

theorem EventUnit.leaveQuiet_sound (addr : Option (BitVec 6)) (ev : EventUnit) (h : EventUnit.Sound ev) :
    EventUnit.Sound (EventUnit.leaveQuiet addr ev) := by
  rw [EventUnit.leaveQuiet_frame]; exact h

theorem EventUnit.requestTaken_sound (addr : Option (BitVec 6)) (ev : EventUnit) (h : EventUnit.Sound ev) :
    EventUnit.Sound (EventUnit.requestTaken addr ev) :=
  EventUnit.test_sound addr _ (EventUnit.leaveQuiet_sound addr ev h)

theorem EventUnit.takeAck_sound (addr : Option (BitVec 6)) (o q : Octet) (ev : EventUnit) (h : EventUnit.Sound ev) :
    EventUnit.Sound (EventUnit.takeAck addr o q ev) := by
  refine EventUnit.test_sound addr _ (EventUnit.leaveQuiet_sound addr _ ?_)
  split
  · rename_i c v hm
    exact EventUnit.acknowledge_sound ev c v h (EventUnit.ackMatch_some ev o q c v hm).1
  · exact h

theorem EventUnit.slotTaken_sound (addr : Option (BitVec 6)) (ev : EventUnit) (h : EventUnit.Sound ev) :
    EventUnit.Sound (EventUnit.slotTaken addr ev) :=
  EventUnit.test_sound addr _ ⟨h.1, h.2.1, h.2.2.1, h.2.2.2.1, rfl⟩

theorem EventUnit.goQuiet_sound (sf : Superframe) (ev : EventUnit) (h : EventUnit.Sound ev) :
    EventUnit.Sound (EventUnit.goQuiet sf ev) :=
  EventUnit.record_sound _ _ _ _ _ ⟨h.1, fun c => by simp, h.2.2.1, h.2.2.2.1, rfl⟩

theorem EventUnit.completeClass_sound (ev : EventUnit) (c : ClassId) (q : Octet) (h : EventUnit.Sound ev) :
    EventUnit.Sound (EventUnit.completeClass ev c q) := by
  unfold EventUnit.completeClass
  split
  · rename_i v hv
    split
    · split
      · exact EventUnit.acknowledge_sound ev c v h hv
      · have hsv := h.2.1 c
        rw [hv, Option.all_some, InService.sound_iff] at hsv
        refine EventUnit.setService_sound ev c _ h ?_ ev.slot (slot_fit_set ev c v _ hv (by rfl) h.2.2.2.2)
        rw [Option.all_some, InService.sound_iff]
        obtain ⟨a1, a2, a3, a4, a5, _, a7⟩ := hsv
        refine ⟨a1, a2, a3, a4, a5, fun t ht => ?_, a7⟩
        have := ev.retryTime.isLt
        cases ht; omega
    · exact h
  · exact h

theorem EventUnit.notificationComplete_sound (sf : Superframe) (addr : Option (BitVec 6)) (c : ClassId) (q : Octet)
    (ev : EventUnit) (h : EventUnit.Sound ev) : EventUnit.Sound (EventUnit.notificationComplete sf addr c q ev) := by
  unfold EventUnit.notificationComplete
  refine EventUnit.test_sound addr _ ?_
  split
  · exact EventUnit.completeClass_sound ev c q h
  · exact EventUnit.goQuiet_sound sf _ (EventUnit.completeClass_sound ev c q h)

/-- The expiry of a timer that has not reached 0 does nothing (R163). -/
theorem EventUnit.expire_not_due (sf : Superframe) (addr : Option (BitVec 6)) (b : Bool) (c : ClassId) (ev : EventUnit)
    (h : EventUnit.expiryDue ev c = false) : EventUnit.expire sf addr b c ev = ev := by
  simp [EventUnit.expire, h]

theorem EventUnit.expire_sound (sf : Superframe) (addr : Option (BitVec 6)) (b : Bool) (c : ClassId) (ev : EventUnit)
    (h : EventUnit.Sound ev) : EventUnit.Sound (EventUnit.expire sf addr b c ev) := by
  unfold EventUnit.expire
  split
  · split
    · rename_i v hv
      have hsv := h.2.1 c
      rw [hv, Option.all_some, InService.sound_iff] at hsv
      obtain ⟨a1, a2, a3, a4, a5, _, a7⟩ := hsv
      refine EventUnit.test_sound addr _ ?_
      split
      · refine EventUnit.setService_sound ev c _ h ?_ ev.slot (slot_fit_set ev c v _ hv (by rfl) h.2.2.2.2)
        rw [Option.all_some, InService.sound_iff]
        exact ⟨a1, a2, a3, a4, by show v.retries + 1 ≤ 4; omega, by simp, a7⟩
      · split
        · have := EventUnit.setService_sound ev c (some { v with timer := none }) h
            (by rw [Option.all_some, InService.sound_iff]; exact ⟨a1, a2, a3, a4, a5, by simp, a7⟩)
            ev.slot (slot_fit_set ev c v _ hv (by rfl) h.2.2.2.2)
          exact this
        · exact EventUnit.goQuiet_sound sf ev h
    · exact h
  · exact h

theorem EventUnit.lowerTimers_sound (ev : EventUnit) (h : EventUnit.Sound ev) :
    EventUnit.Sound (EventUnit.lowerTimers ev) := by
  obtain ⟨h1, h2, h3, h4, h5⟩ := h
  refine ⟨h1, fun c => ?_, h3, h4, ?_⟩
  · have := h2 c
    simp only [EventUnit.lowerTimers, Fin.getElem_fin, Vector.getElem_ofFn]
    cases hv : ev.service[c] with
    | none => simp
    | some v =>
      rw [hv, Option.all_some, InService.sound_iff] at this
      rw [Option.all_some, InService.sound_iff]
      obtain ⟨a1, a2, a3, a4, a5, a6, a7⟩ := this
      refine ⟨a1, a2, a3, a4, a5, fun t ht => ?_, a7⟩
      cases htv : v.timer with
      | none => rw [htv] at ht; cases ht
      | some u =>
        rw [htv] at ht
        have := a6 u htv
        simp at ht
        omega
  · rw [Option.all_eq_true] at h5 ⊢
    intro x hx
    have := h5 x hx
    simp only [EventUnit.lowerTimers, Fin.getElem_fin, Vector.getElem_ofFn]
    cases hv : ev.service[x.1] with
    | none => rw [hv] at this; simp at this
    | some v => rw [hv] at this; simp only [Fin.getElem_fin] at hv; simpa [hv] using this

theorem EventUnit.expireDue_sound (sf : Superframe) (addr : Option (BitVec 6)) (b : Bool) (ev : EventUnit)
    (h : EventUnit.Sound ev) : EventUnit.Sound (EventUnit.expireDue sf addr b ev) := by
  unfold EventUnit.expireDue
  generalize ev.order = l
  induction l generalizing ev with
  | nil => exact h
  | cons c l ih => exact ih _ (EventUnit.expire_sound sf addr b c ev h)

/-- Where no timer stands at 0, no expiry is due (R163). -/
theorem EventUnit.expireDue_none (sf : Superframe) (addr : Option (BitVec 6)) (b : Bool) (ev : EventUnit)
    (h : ∀ c : ClassId, EventUnit.expiryDue ev c = false) : EventUnit.expireDue sf addr b ev = ev := by
  unfold EventUnit.expireDue
  generalize ev.order = l
  induction l with
  | nil => rfl
  | cons c l ih => rw [List.foldl_cons, EventUnit.expire_not_due sf addr b c ev (h c), ih]

theorem EventUnit.mark_sound (sf : Superframe) (addr : Option (BitVec 6)) (b early : Bool) (ev : EventUnit)
    (h : EventUnit.Sound ev) : EventUnit.Sound (EventUnit.mark sf addr b early ev) := by
  have hl := EventUnit.lowerTimers_sound _ (EventUnit.expireDue_sound sf addr b ev h)
  unfold EventUnit.mark
  simp only
  split
  · exact EventUnit.expireDue_sound sf addr b _ hl
  · exact hl

/-! ### Class requests and resets -/

theorem EventUnit.discard_sound (ev : EventUnit) (c : ClassId) (n : Nat) (h : EventUnit.Sound ev) :
    EventUnit.Sound (EventUnit.discard ev c n) := by
  refine EventUnit.setQueue_sound ev c _ _ h ?_ (fun v hv hl => ?_)
  · simp only [EventUnit.discarded, List.length_append, List.length_drop, List.length_take]
    omega
  · have hco : EventUnit.carriedOf ev c = v.carried := by simp only [EventUnit.carriedOf, hv]
    have hk : (ev.queues[c].take v.carried).length = v.carried := by rw [List.length_take]; omega
    rw [hco]
    exact ⟨by rw [List.length_append]; omega, by rw [List.take_append_of_le_length (by omega), List.take_take]; simp⟩

theorem EventUnit.hardware_sound : EventUnit.Sound EventUnit.hardware := by
  refine ⟨by decide, fun c => by simp [EventUnit.hardware], by decide, fun _ => rfl, rfl⟩

theorem EventUnit.cleared_sound (ev : EventUnit) : EventUnit.Sound (EventUnit.cleared ev) := by
  refine ⟨?_, fun c => by simp [EventUnit.cleared], ?_, fun _ => rfl, rfl⟩
  · show 64 + ((Vector.replicate 8 ([] : List EventRecord)).toList.map List.length).sum = 64
    decide
  · show fixedOrder.length = 8 ∧ fixedOrder.Nodup
    decide

/-- `EventUnit.Sound` speaks of seven fields alone. -/
theorem EventUnit.sound_of_fields (ev ev' : EventUnit) (h : EventUnit.Sound ev) (e1 : ev'.free = ev.free)
    (e2 : ev'.queues = ev.queues) (e3 : ev'.service = ev.service) (e4 : ev'.lost = ev.lost) (e5 : ev'.slot = ev.slot)
    (ho : ev'.order.length = 8 ∧ ev'.order.Nodup) (hf : ev'.orderMode = .fixed → ev'.order = fixedOrder) :
    EventUnit.Sound ev' := by
  obtain ⟨h1, h2, _, _, h5⟩ := h
  unfold EventUnit.Sound EventUnit.heldRecords
  rw [e1, e2, e3, e4, e5]
  exact ⟨h1, h2, ho, hf, h5⟩

/-! #### What a WRITE_EVENT_SETUP leaves as it was -/

@[simp] theorem EventUnit.withSetup_free (ev : EventUnit) (os : List Octet) (m : OrderMode) :
    (EventUnit.withSetup ev os m).free = ev.free := by simp only [EventUnit.withSetup]

@[simp] theorem EventUnit.withSetup_queues (ev : EventUnit) (os : List Octet) (m : OrderMode) :
    (EventUnit.withSetup ev os m).queues = ev.queues := by simp only [EventUnit.withSetup]

@[simp] theorem EventUnit.withSetup_service (ev : EventUnit) (os : List Octet) (m : OrderMode) :
    (EventUnit.withSetup ev os m).service = ev.service := by simp only [EventUnit.withSetup]

@[simp] theorem EventUnit.withSetup_lost (ev : EventUnit) (os : List Octet) (m : OrderMode) :
    (EventUnit.withSetup ev os m).lost = ev.lost := by simp only [EventUnit.withSetup]

@[simp] theorem EventUnit.withSetup_slot (ev : EventUnit) (os : List Octet) (m : OrderMode) :
    (EventUnit.withSetup ev os m).slot = ev.slot := by simp only [EventUnit.withSetup]

@[simp] theorem EventUnit.withSetup_notifier (ev : EventUnit) (os : List Octet) (m : OrderMode) :
    (EventUnit.withSetup ev os m).notifier = ev.notifier := by simp only [EventUnit.withSetup]

@[simp] theorem EventUnit.withSetup_quietWait (ev : EventUnit) (os : List Octet) (m : OrderMode) :
    (EventUnit.withSetup ev os m).quietWait = ev.quietWait := by simp only [EventUnit.withSetup]

@[simp] theorem EventUnit.withSetup_notifySequence (ev : EventUnit) (os : List Octet) (m : OrderMode) :
    (EventUnit.withSetup ev os m).notifySequence = ev.notifySequence := by simp only [EventUnit.withSetup]

@[simp] theorem EventUnit.withSetup_retryTime (ev : EventUnit) (os : List Octet) (m : OrderMode) :
    (EventUnit.withSetup ev os m).retryTime = ev.retryTime := by simp only [EventUnit.withSetup]

/-- The priority order that a WRITE_EVENT_SETUP leaves (R169). -/
theorem EventUnit.withSetup_order (ev : EventUnit) (os : List Octet) (m : OrderMode) :
    (EventUnit.withSetup ev os m).order = fixedOrder ∨
      (m = .rotate ∧ (EventUnit.withSetup ev os m).order = ev.order) := by
  unfold EventUnit.withSetup
  cases m
  · exact .inl rfl
  · cases ev.orderMode
    · exact .inl rfl
    · exact .inr ⟨rfl, rfl⟩

theorem EventUnit.withSetup_sound (ev : EventUnit) (os : List Octet) (m : OrderMode) (h : EventUnit.Sound ev) :
    EventUnit.Sound (EventUnit.withSetup ev os m) := by
  refine EventUnit.sound_of_fields ev (EventUnit.withSetup ev os m) h (EventUnit.withSetup_free ..)
    (EventUnit.withSetup_queues ..) (EventUnit.withSetup_service ..) (EventUnit.withSetup_lost ..)
    (EventUnit.withSetup_slot ..) ?_ (fun hm => ?_)
  · rcases EventUnit.withSetup_order ev os m with e | ⟨_, e⟩ <;> rw [e]
    · exact ⟨rfl, by decide⟩
    · exact h.2.2.1
  · rcases EventUnit.withSetup_order ev os m with e | ⟨hr, _⟩
    · exact e
    · have : m = .fixed := hm
      rw [hr] at this; cases this

end Sys2Proof.Machine
end

