-- ==== Sys2Proof/Laws/MapStore.lean ====
section
/-! SUPPORT. The Map Store and the Slot Switch: what the test at a superframe start can do (R62), that each change of the banks
keeps `MapStore.Sound` (R38), and what grooming gives a slot and a channel (R48 to R51). -/

namespace Sys2Proof.Machine

/-! ### Banks by role -/

@[simp] theorem MapStore.setShadow_active (m : MapStore) (b : Bank) (st : ShadowState) :
    (MapStore.setShadow m b st).active = m.active := by
  unfold MapStore.setShadow; cases m.active <;> rfl

@[simp] theorem MapStore.setShadow_shadow (m : MapStore) (b : Bank) (st : ShadowState) :
    (MapStore.setShadow m b st).shadow = st := by
  unfold MapStore.setShadow; cases m.active <;> rfl

@[simp] theorem MapStore.setShadow_activeBank (m : MapStore) (b : Bank) (st : ShadowState) :
    MapStore.activeBank (MapStore.setShadow m b st) = MapStore.activeBank m := by
  simp only [MapStore.activeBank, MapStore.setShadow_active]
  unfold MapStore.setShadow
  cases h : m.active <;> rfl

@[simp] theorem MapStore.setShadow_shadowBank (m : MapStore) (b : Bank) (st : ShadowState) :
    MapStore.shadowBank (MapStore.setShadow m b st) = b := by
  simp only [MapStore.shadowBank, MapStore.shadowName, MapStore.setShadow_active]
  unfold MapStore.setShadow
  cases h : m.active <;> rfl

@[simp] theorem MapStore.swap_activeBank (m : MapStore) :
    MapStore.activeBank (MapStore.swap m) = MapStore.shadowBank m := rfl

@[simp] theorem MapStore.swap_shadowBank (m : MapStore) :
    MapStore.shadowBank (MapStore.swap m) = MapStore.activeBank m := by
  cases h : m.active <;> simp [MapStore.shadowBank, MapStore.activeBank, MapStore.shadowName, MapStore.swap, h,
    BankName.other, MapStore.bank]

/-! ### The test at a superframe start -/

/-- Everything the test can do: nothing where no switch is pending or the target is ahead, an on-time swap, a late swap. -/
theorem MapStore.fire_cases (m : MapStore) (sf : Superframe) :
    (ShadowState.target m.shadow = none ∧ MapStore.fire m sf = (m, none)) ∨
      (∃ t, m.shadow = .pending t ∧ isAhead t sf = true ∧ MapStore.fire m sf = (m, none)) ∨
      (∃ t, m.shadow = .pending t ∧ t = sf ∧
        MapStore.fire m sf = (MapStore.swap m, some (.switchDone, recordValue t))) ∨
      (∃ t, m.shadow = .pending t ∧ isAhead t sf = false ∧ t ≠ sf ∧
        MapStore.fire m sf = (MapStore.swap m, some (.switchLate, recordValue (sf - t)))) := by
  cases hs : m.shadow with
  | editable => exact .inl ⟨rfl, by simp [MapStore.fire, hs]⟩
  | checked => exact .inl ⟨rfl, by simp [MapStore.fire, hs]⟩
  | pending t =>
    by_cases ha : isAhead t sf = true
    · exact .inr (.inl ⟨t, rfl, ha, by simp [MapStore.fire, hs, ha]⟩)
    · by_cases he : t = sf
      · subst he
        exact .inr (.inr (.inl ⟨t, rfl, rfl, by simp [MapStore.fire, hs, ha]⟩))
      · exact .inr (.inr (.inr ⟨t, rfl, by simpa using ha, he, by simp [MapStore.fire, hs, ha, he]⟩))

/-! ### Soundness -/

theorem passBank_conflictFree : Bank.conflictFree passBank = true := by decide +kernel

theorem MapStore.hardware_sound : MapStore.Sound MapStore.hardware :=
  ⟨passBank_conflictFree, fun _ => passBank_conflictFree⟩

theorem MapStore.fire_sound (m : MapStore) (sf : Superframe) (h : MapStore.Sound m) :
    MapStore.Sound (MapStore.fire m sf).1 := by
  rcases MapStore.fire_cases m sf with ⟨_, he⟩ | ⟨_, _, _, he⟩ | ⟨t, hp, _, he⟩ | ⟨t, hp, _, _, he⟩ <;> rw [he]
  · exact h
  · exact h
  · exact ⟨by simpa using h.2 (by simp [hp]), fun _ => by simpa using h.1⟩
  · exact ⟨by simpa using h.2 (by simp [hp]), fun _ => by simpa using h.1⟩

/-- A write to the shadow that leaves it EDITABLE keeps the condition, whatever is written (R38, R40). -/
theorem MapStore.setShadow_editable_sound (m : MapStore) (b : Bank) (h : MapStore.Sound m) :
    MapStore.Sound (MapStore.setShadow m b .editable) := by
  refine ⟨by simpa using h.1, fun hn => ?_⟩
  simp at hn

/-- COPY_ACTIVE keeps the condition (R42). -/
theorem MapStore.copyActive_sound (m : MapStore) (h : MapStore.Sound m) :
    MapStore.Sound (MapStore.setShadow m (MapStore.activeBank m) .checked) :=
  ⟨by simpa using h.1, fun _ => by simpa using h.1⟩

/-- No channel in conflict is found exactly in a bank that is free of conflicts (R43, R44). -/
theorem Bank.firstConflict_none (b : Bank) : Bank.firstConflict b = none ↔ Bank.conflictFree b = true := by
  simp [Bank.firstConflict, Bank.conflictFree]

theorem MapStore.warm_sound (m : MapStore) (h : MapStore.Sound m) : MapStore.Sound (MapStore.warm m) := by
  unfold MapStore.warm
  split
  · rename_i t hp
    exact ⟨h.1, fun _ => h.2 (by simp [hp])⟩
  · exact h
  · exact h

/-! ### Grooming -/

theorem Grooming.payload_get (g : Grooming) (s : Slot) : (Grooming.payload g)[s] = Grooming.outgoing g s := by
  simp [Grooming.payload]

theorem Grooming.dropFrame_get (g : Grooming) (lg : LocalSamples) (c : Channel) :
    (Grooming.dropFrame g lg)[c] = Grooming.delivered g lg c := by
  simp [Grooming.dropFrame]

/-- In a bank free of conflicts, a slot whose entry drops a channel is the slot that `dropSlot` finds for it (R38, R51). -/
theorem Bank.dropSlot_eq (b : Bank) (h : Bank.conflictFree b = true) (s : Slot) (c : Channel)
    (hs : Action.dropChannel b[s].action = some c) : Bank.dropSlot b c = some s := by
  have hc : ¬ Bank.inConflict b c = true := by
    simp only [Bank.conflictFree, List.all_eq_true, List.mem_finRange, forall_const, Bool.not_eq_true'] at h
    simp [h c]
  have hm : s ∈ Bank.dropSlots b c := by simpa [Bank.dropSlots] using hs
  have hl : (Bank.dropSlots b c).length ≤ 1 := by
    simp only [Bank.inConflict, decide_eq_true_eq] at hc; omega
  obtain ⟨x, hx⟩ : ∃ x, Bank.dropSlots b c = [x] := by
    match hd : Bank.dropSlots b c with
    | [] => simp [hd] at hm
    | [x] => exact ⟨x, rfl⟩
    | _ :: _ :: _ => rw [hd] at hl; simp at hl
  have hxs : x = s := by rw [hx] at hm; exact (List.mem_singleton.mp hm).symm
  unfold Bank.dropSlot
  rw [← List.head?_filter]
  unfold Bank.dropSlots at hx
  rw [hx, hxs]; rfl

end Sys2Proof.Machine
end

