-- ==== Sys2Proof/Laws/Stores.lean ====
section
/-! SUPPORT. The elastic stores and the local port: what one write and one read of a store can do (R75 to R82), and that the
operations of the port keep `Store.Sound`. -/

namespace Sys2Proof.Machine

/-! ### One store -/

/-- Everything a write can do: nothing in STOPPED, an append, an append that completes the priming, or a delete slip. -/
theorem Store.write_cases (st : Store) (f : LocalSamples) :
    (st.state = .stopped ∧ Store.write st f = (st, false)) ∨
      (st.state = .priming ∧ st.frames = [] ∧ Store.write st f = ({ st with frames := [f] }, false)) ∨
      (st.state = .priming ∧ st.frames ≠ [] ∧
        Store.write st f = ({ st with frames := st.frames ++ [f], state := .running }, false)) ∨
      (st.state = .running ∧ st.frames.length < 4 ∧
        Store.write st f = ({ st with frames := st.frames ++ [f] }, false)) ∨
      (st.state = .running ∧ 4 ≤ st.frames.length ∧
        Store.write st f = ({ st with frames := st.frames.tail ++ [f] }, true)) := by
  rcases hs : st.state with _ | _ | _
  · exact .inl ⟨rfl, by simp [Store.write, hs]⟩
  · rcases hf : st.frames with _ | ⟨g, gs⟩
    · exact .inr (.inl ⟨rfl, rfl, by simp [Store.write, hs, hf]⟩)
    · exact .inr (.inr (.inl ⟨rfl, by simp, by simp [Store.write, hs, hf]⟩))
  · by_cases h4 : 4 ≤ st.frames.length
    · exact .inr (.inr (.inr (.inr ⟨rfl, h4, by simp [Store.write, hs, h4]⟩)))
    · exact .inr (.inr (.inr (.inl ⟨rfl, by omega, by simp [Store.write, hs, h4]⟩)))

/-- Everything a read can do: idle words outside RUNNING, the oldest frame, or a repeat slip. -/
theorem Store.read_cases (st : Store) (idle : Sample) :
    (st.state ≠ .running ∧ Store.read st idle = (st, idleSamples idle, false)) ∨
      (∃ f rest, st.state = .running ∧ st.frames = f :: rest ∧
        Store.read st idle = ({ st with frames := rest, last := some f }, f, false)) ∨
      (st.state = .running ∧ st.frames = [] ∧
        Store.read st idle = (st, st.last.getD (idleSamples idle), true)) := by
  rcases hs : st.state with _ | _ | _
  · exact .inl ⟨by simp, by simp [Store.read, hs]⟩
  · exact .inl ⟨by simp, by simp [Store.read, hs]⟩
  · rcases hf : st.frames with _ | ⟨g, gs⟩
    · exact .inr (.inr ⟨rfl, rfl, by simp [Store.read, hs, hf]⟩)
    · exact .inr (.inl ⟨g, gs, rfl, rfl, by simp [Store.read, hs, hf]⟩)

theorem Store.emptied_sound (st : StoreState) (h : st ≠ .running) : Store.Sound (Store.emptied st) := by
  cases st <;> simp_all [Store.Sound, Store.emptied]

theorem Store.write_sound (st : Store) (f : LocalSamples) (h : Store.Sound st) : Store.Sound (Store.write st f).1 := by
  obtain ⟨h1, h2, h3, h4⟩ := h
  rcases Store.write_cases st f with ⟨hs, he⟩ | ⟨hs, hf, he⟩ | ⟨hs, hf, he⟩ | ⟨hs, hl, he⟩ | ⟨hs, hl, he⟩ <;> rw [he]
  · exact ⟨h1, h2, h3, h4⟩
  · have := (h3 hs).2
    simp [Store.Sound, hs, this]
  · have := (h3 hs).1
    simp [Store.Sound]; omega
  · simp [Store.Sound, hs]; omega
  · simp [Store.Sound, hs]; omega

theorem Store.read_sound (st : Store) (idle : Sample) (h : Store.Sound st) : Store.Sound (Store.read st idle).1 := by
  obtain ⟨h1, h2, h3, h4⟩ := h
  rcases Store.read_cases st idle with ⟨_, he⟩ | ⟨f, rest, hs, hf, he⟩ | ⟨_, _, he⟩ <;> rw [he]
  · exact ⟨h1, h2, h3, h4⟩
  · rw [hf] at h1
    simp only [List.length_cons] at h1
    refine ⟨by show rest.length ≤ 4; omega, fun _ _ => rfl, ?_, ?_⟩ <;> intro h <;> simp_all
  · exact ⟨h1, h2, h3, h4⟩

/-- A write never changes the last delivered frame (R82). -/
theorem Store.write_last (st : Store) (f : LocalSamples) : (Store.write st f).1.last = st.last := by
  rcases Store.write_cases st f with ⟨_, he⟩ | ⟨_, _, he⟩ | ⟨_, _, he⟩ | ⟨_, _, he⟩ | ⟨_, _, he⟩ <;> rw [he]

/-- A write and a read never stop a store nor start one that is STOPPED (R75). -/
theorem Store.write_stopped (st : Store) (f : LocalSamples) :
    (Store.write st f).1.state = .stopped ↔ st.state = .stopped := by
  rcases Store.write_cases st f with ⟨hs, he⟩ | ⟨hs, _, he⟩ | ⟨hs, _, he⟩ | ⟨hs, _, he⟩ | ⟨hs, _, he⟩ <;> simp [he, hs]

theorem Store.read_state (st : Store) (idle : Sample) : (Store.read st idle).1.state = st.state := by
  rcases Store.read_cases st idle with ⟨_, he⟩ | ⟨_, _, _, _, he⟩ | ⟨_, _, he⟩ <;> rw [he]

/-! ### Slips -/

/-- A slip of the Drop Store touches the counters and the Event Unit alone. -/
theorem State.dropSlip_frame (s : State) (b : Bool) :
    State.dropSlip s b = { s with counters := (State.dropSlip s b).counters, events := (State.dropSlip s b).events } := by
  cases b <;> rfl

/-- A slip of the Add Store touches the counters and the Event Unit alone. -/
theorem State.addSlip_frame (s : State) (b : Bool) :
    State.addSlip s b = { s with counters := (State.addSlip s b).counters, events := (State.addSlip s b).events } := by
  cases b <;> rfl

@[simp] theorem State.dropSlip_false (s : State) : State.dropSlip s false = s := rfl
@[simp] theorem State.addSlip_false (s : State) : State.addSlip s false = s := rfl
@[simp] theorem State.dropSlip_port (s : State) (b : Bool) : (State.dropSlip s b).port = s.port := by cases b <;> rfl
@[simp] theorem State.addSlip_port (s : State) (b : Bool) : (State.addSlip s b).port = s.port := by cases b <;> rfl
@[simp] theorem State.dropSlip_ringOut (s : State) (b : Bool) : (State.dropSlip s b).ringOut = s.ringOut := by
  cases b <;> rfl
@[simp] theorem State.addSlip_ringOut (s : State) (b : Bool) : (State.addSlip s b).ringOut = s.ringOut := by
  cases b <;> rfl

/-! ### The operations of the port: what they touch -/

/-- A write of a drop frame touches the port, the counters and the Event Unit. -/
theorem State.writeDrop_frame (s : State) (f : LocalSamples) :
    State.writeDrop s f = { s with port := (State.writeDrop s f).port, counters := (State.writeDrop s f).counters
                                   events := (State.writeDrop s f).events } := by
  unfold State.writeDrop
  generalize (Store.write s.port.drop f) = r
  obtain ⟨st, b⟩ := r
  cases b <;> rfl

theorem State.writeDrop_port (s : State) (f : LocalSamples) :
    (State.writeDrop s f).port = { s.port with drop := (Store.write s.port.drop f).1 } := by
  simp [State.writeDrop]

/-- A write of an add frame touches the port, the counters and the Event Unit. -/
theorem State.writeAdd_frame (s : State) (f : LocalSamples) :
    State.writeAdd s f = { s with port := (State.writeAdd s f).port, counters := (State.writeAdd s f).counters
                                  events := (State.writeAdd s f).events } := by
  unfold State.writeAdd
  generalize (Store.write s.port.add f) = r
  obtain ⟨st, b⟩ := r
  cases b <;> rfl

theorem State.writeAdd_port (s : State) (f : LocalSamples) :
    (State.writeAdd s f).port = { s.port with add := (Store.write s.port.add f).1 } := by
  simp [State.writeAdd]

/-- The read of an add frame touches the port, the counters and the Event Unit. -/
theorem State.readAdd_frame (s : State) :
    (State.readAdd s).2 = { s with port := (State.readAdd s).2.port, counters := (State.readAdd s).2.counters
                                   events := (State.readAdd s).2.events } := by
  unfold State.readAdd
  generalize (Store.read s.port.add s.ringOut.idleWord) = r
  obtain ⟨st, f, b⟩ := r
  cases b <;> rfl

theorem State.readAdd_port (s : State) :
    (State.readAdd s).2.port = { s.port with add := (Store.read s.port.add s.ringOut.idleWord).1 } := by
  simp [State.readAdd]

/-- The start of a local frame touches the port, the counters and the Event Unit. -/
theorem State.beginLocalFrame_frame (s : State) :
    State.beginLocalFrame s = { s with port := (State.beginLocalFrame s).port, counters := (State.beginLocalFrame s).counters
                                       events := (State.beginLocalFrame s).events } := by
  unfold State.beginLocalFrame
  generalize (Store.read s.port.drop s.ringOut.idleWord) = r
  obtain ⟨st, f, b⟩ := r
  cases b <;> rfl

theorem State.beginLocalFrame_port (s : State) :
    (State.beginLocalFrame s).port =
      { s.port with
        drop := (Store.read s.port.drop s.ringOut.idleWord).1
        localFrame := some
          { edges := 0, addSoFar := []
            out := if s.port.drop.state = .stopped then none
              else some (Store.read s.port.drop s.ringOut.idleWord).2.1 }
        startDue := false } := by
  simp [State.beginLocalFrame]

/-- The end of a local frame touches the port, the counters and the Event Unit. -/
theorem State.completeLocalFrame_frame (s : State) (add : LocalSamples) :
    State.completeLocalFrame s add =
      { s with port := (State.completeLocalFrame s add).port, counters := (State.completeLocalFrame s add).counters
               events := (State.completeLocalFrame s add).events } := by
  unfold State.completeLocalFrame
  split
  · rw [State.writeAdd_frame]
  · rfl

/-- The start of an emitted frame at the port touches the port, the counters, the Event Unit and the drawn choices. -/
theorem State.followFrameStart_frame (s : State) :
    State.followFrameStart s =
      { s with port := (State.followFrameStart s).port, counters := (State.followFrameStart s).counters
               events := (State.followFrameStart s).events, choices := (State.followFrameStart s).choices } := by
  unfold State.followFrameStart
  split
  · split
    · simp only [State.draw]
      rw [State.completeLocalFrame_frame]
    · rfl
  · rfl

/-- A mark at the watchdog touches the port and the Event Unit. -/
theorem State.watchdogMark_frame (s : State) :
    State.watchdogMark s = { s with port := (State.watchdogMark s).port, events := (State.watchdogMark s).events } := by
  unfold State.watchdogMark
  repeat' split
  all_goals rfl

/-- A settled local frame start touches the port, the counters and the Event Unit. -/
theorem State.settleLocalStart_frame (s : State) :
    State.settleLocalStart s =
      { s with port := (State.settleLocalStart s).port, counters := (State.settleLocalStart s).counters
               events := (State.settleLocalStart s).events } := by
  unfold State.settleLocalStart
  split
  · rw [State.beginLocalFrame_frame]
  · rfl

/-! ### The operations of the port: both stores stay sound -/

theorem LocalPort.setMode_stores (p : LocalPort) (m : LocalMode) (h : Store.Sound p.drop ∧ Store.Sound p.add) :
    Store.Sound (LocalPort.setMode p m).drop ∧ Store.Sound (LocalPort.setMode p m).add := by
  unfold LocalPort.setMode
  split
  · exact h
  · constructor <;> exact Store.emptied_sound _ (by cases m <;> simp [LocalMode.storeState])

theorem State.beginLocalFrame_stores (s : State) (h : Store.Sound s.port.drop ∧ Store.Sound s.port.add) :
    Store.Sound (State.beginLocalFrame s).port.drop ∧ Store.Sound (State.beginLocalFrame s).port.add := by
  rw [State.beginLocalFrame_port]
  exact ⟨Store.read_sound _ _ h.1, h.2⟩

theorem State.completeLocalFrame_stores (s : State) (add : LocalSamples)
    (h : Store.Sound s.port.drop ∧ Store.Sound s.port.add) :
    Store.Sound (State.completeLocalFrame s add).port.drop ∧ Store.Sound (State.completeLocalFrame s add).port.add := by
  unfold State.completeLocalFrame
  split
  · rw [State.writeAdd_port]
    exact ⟨h.1, Store.write_sound _ _ h.2⟩
  · exact h

theorem State.watchdogMark_stores (s : State) (h : Store.Sound s.port.drop ∧ Store.Sound s.port.add) :
    Store.Sound (State.watchdogMark s).port.drop ∧ Store.Sound (State.watchdogMark s).port.add := by
  unfold State.watchdogMark
  split
  · exact h
  · split
    · exact h
    · split
      · exact ⟨Store.emptied_sound .stopped (by simp), Store.emptied_sound .stopped (by simp)⟩
      · exact h

end Sys2Proof.Machine
end

