-- ==== Sys2Proof/Laws/Watches.lean ====
section
/-! SUPPORT. The Watch Unit: what one evaluation can do to a watch (R93 to R99), and that it keeps `Watch.Sound` (R92). -/

namespace Sys2Proof.Machine

/-- An evaluation never touches the setup (R104). -/
theorem Watch.candidateSeen_setup (w : Watch) (v : Sample) (n : Nat) : (Watch.candidateSeen w v n).1.setup = w.setup := by
  unfold Watch.candidateSeen; split <;> rfl

theorem Watch.compareChange_setup (w : Watch) (v : Sample) : (Watch.compareChange w v).1.setup = w.setup := by
  unfold Watch.compareChange
  split
  · rfl
  · split <;> exact Watch.candidateSeen_setup _ _ _

theorem Watch.stepSilence_setup (w : Watch) : (Watch.stepSilence w).setup = w.setup := by
  unfold Watch.stepSilence; split <;> [rfl; (split <;> rfl)]

/-- The step touches the counter and the status alone: what the candidate and the stable value hold is left as it was. -/
theorem Watch.stepSilence_frame (w : Watch) :
    Watch.stepSilence w = { w with silence := (Watch.stepSilence w).silence, status := (Watch.stepSilence w).status } := by
  unfold Watch.stepSilence; split <;> [rfl; (split <;> rfl)]

/-- A comparison touches neither the counter nor the status (R95). -/
theorem Watch.compareChange_silence (w : Watch) (v : Sample) :
    (Watch.compareChange w v).1.silence = w.silence ∧ (Watch.compareChange w v).1.status = w.status := by
  unfold Watch.compareChange
  split
  · exact ⟨rfl, rfl⟩
  · split <;> (unfold Watch.candidateSeen; split <;> exact ⟨rfl, rfl⟩)

/-- Every evaluation is one of these: activity, a step at a superframe start, or neither; in CHANGE mode after the
comparison. -/
theorem Watch.evaluate_cases (w : Watch) (x : Sample) (start : Bool) :
    (w.setup.mode = .activity ∧ Watch.matchActivity w x = true ∧
      Watch.evaluate w x start = (Watch.showsActivity w, Watch.resumption w)) ∨
    (w.setup.mode = .activity ∧ Watch.matchActivity w x = false ∧ Watch.evaluate w x start = Watch.quietFrame w start) ∨
    (∃ v, w.setup.mode = .change ∧ (Watch.compareChange w (Watch.masked w x)).2 = some v ∧
      Watch.evaluate w x start =
        (Watch.showsActivity (Watch.compareChange w (Watch.masked w x)).1,
          (.watchChanged, some v) :: Watch.resumption (Watch.compareChange w (Watch.masked w x)).1)) ∨
    (w.setup.mode = .change ∧ (Watch.compareChange w (Watch.masked w x)).2 = none ∧
      Watch.evaluate w x start = Watch.quietFrame (Watch.compareChange w (Watch.masked w x)).1 start) := by
  cases hm : w.setup.mode with
  | activity =>
    cases ha : Watch.matchActivity w x with
    | true => exact .inl ⟨rfl, rfl, by simp [Watch.evaluate, hm, ha]⟩
    | false => exact .inr (.inl ⟨rfl, rfl, by simp [Watch.evaluate, hm, ha]⟩)
  | change =>
    rcases hc : Watch.compareChange w (Watch.masked w x) with ⟨w', o⟩
    cases o with
    | some v => exact .inr (.inr (.inl ⟨v, rfl, rfl, by simp [Watch.evaluate, hm, hc]⟩))
    | none => exact .inr (.inr (.inr ⟨rfl, rfl, by simp [Watch.evaluate, hm, hc]⟩))

/-! ### Soundness -/

theorem Watch.restarted_sound (u : WatchSetup) (h1 : 1 ≤ u.limit ∧ u.limit ≤ 4095) (h2 : 1 ≤ u.debounce ∧ u.debounce ≤ 15) :
    Watch.Sound (Watch.restarted u) := by
  refine ⟨h1, h2, le_refl _, ?_, ?_, ?_, rfl, rfl, fun _ => ⟨rfl, rfl, rfl⟩, fun _ => rfl⟩ <;>
    simp [Watch.restarted] <;> omega

theorem Watch.showsActivity_sound (w : Watch) (he : w.setup.enabled = true) (h : Watch.Sound w) :
    Watch.Sound (Watch.showsActivity w) := by
  obtain ⟨h1, h2, h3, h4, h5, h6, h7, h8, h9, h10⟩ := h
  refine ⟨h1, h2, le_refl _, ?_, h5, h6, h7, h8, h9, ?_⟩
  · simp [Watch.showsActivity]; omega
  · exact fun hd => absurd (he.symm.trans hd) (by simp)

theorem Watch.stepSilence_sound (w : Watch) (he : w.setup.enabled = true) (h : Watch.Sound w) :
    Watch.Sound (Watch.stepSilence w) := by
  obtain ⟨h1, h2, h3, h4, h5, h6, h7, h8, h9, h10⟩ := h
  unfold Watch.stepSilence
  split
  · exact ⟨h1, h2, h3, h4, h5, h6, h7, h8, h9, h10⟩
  · split
    · exact ⟨h1, h2, Nat.zero_le _, by simp, h5, h6, h7, h8, h9, fun hd => absurd (he.symm.trans hd) (by simp)⟩
    · refine ⟨h1, h2, by show w.silence - 1 ≤ w.setup.limit; omega, ?_, h5, h6, h7, h8, h9,
        fun hd => absurd (he.symm.trans hd) (by simp)⟩
      show w.status = .silent ↔ w.silence - 1 = 0
      rw [h4]; omega

theorem Watch.candidateSeen_sound (w : Watch) (v : Sample) (n : Nat) (he : w.setup.enabled = true)
    (hm : w.setup.mode = .change) (hv : v &&& w.setup.mask = v) (hn : 1 ≤ n) (h : Watch.Sound w) :
    Watch.Sound (Watch.candidateSeen w v n).1 := by
  obtain ⟨h1, h2, h3, h4, h5, h6, h7, h8, h9, h10⟩ := h
  unfold Watch.candidateSeen
  split
  · refine ⟨h1, h2, h3, h4, by show 0 < w.setup.debounce; omega, by simp, by simpa using hv, rfl,
      fun hd => absurd (hm.symm.trans hd) (by simp), fun hd => absurd (he.symm.trans hd) (by simp)⟩
  · refine ⟨h1, h2, h3, h4, by show n < w.setup.debounce; omega, ?_, h7, by simpa using hv,
      fun hd => absurd (hm.symm.trans hd) (by simp), fun hd => absurd (he.symm.trans hd) (by simp)⟩
    simp; omega

theorem Watch.compareChange_sound (w : Watch) (v : Sample) (he : w.setup.enabled = true) (hm : w.setup.mode = .change)
    (hv : v &&& w.setup.mask = v) (h : Watch.Sound w) : Watch.Sound (Watch.compareChange w v).1 := by
  unfold Watch.compareChange
  split
  · obtain ⟨h1, h2, h3, h4, h5, h6, h7, h8, h9, h10⟩ := h
    refine ⟨h1, h2, h3, h4, by show 0 < w.setup.debounce; omega, by simp, h7, rfl,
      fun hd => absurd (hm.symm.trans hd) (by simp), fun hd => absurd (he.symm.trans hd) (by simp)⟩
  · split
    · exact Watch.candidateSeen_sound w v _ he hm hv (by omega) h
    · exact Watch.candidateSeen_sound w v _ he hm hv (le_refl _) h

theorem Watch.quietFrame_sound (w : Watch) (start : Bool) (he : w.setup.enabled = true) (h : Watch.Sound w) :
    Watch.Sound (Watch.quietFrame w start).1 := by
  cases start
  · exact h
  · exact Watch.stepSilence_sound w he h

theorem Watch.evaluate_sound (w : Watch) (x : Sample) (start : Bool) (he : w.setup.enabled = true) (h : Watch.Sound w) :
    Watch.Sound (Watch.evaluate w x start).1 := by
  have hv : Watch.masked w x &&& w.setup.mask = Watch.masked w x := by
    simp [Watch.masked, BitVec.and_assoc]
  rcases Watch.evaluate_cases w x start with ⟨_, _, e⟩ | ⟨_, _, e⟩ | ⟨v, hm, _, e⟩ | ⟨hm, _, e⟩ <;> rw [e]
  · exact Watch.showsActivity_sound w he h
  · exact Watch.quietFrame_sound w start he h
  · exact Watch.showsActivity_sound _ (by rw [Watch.compareChange_setup]; exact he) (Watch.compareChange_sound w _ he hm hv h)
  · exact Watch.quietFrame_sound _ start (by rw [Watch.compareChange_setup]; exact he)
      (Watch.compareChange_sound w _ he hm hv h)

/-! ### The unit: what its operations touch -/

/-- The posts of a watch touch the Event Unit alone. -/
theorem State.postWatch_frame (s : State) (i : WatchId) (es : List (EventKind × Option Sample)) :
    State.postWatch s i es = { s with events := (State.postWatch s i es).events } := by
  induction es generalizing s with
  | nil => rfl
  | cons e es ih =>
    have : State.postWatch s i (e :: es) = State.postWatch (State.post s e.1 (some i) e.2) i es := rfl
    rw [this, ih]
    rfl

/-- The evaluation of a watch touches the watches, the copies that are due and the Event Unit. -/
theorem State.evaluateWatch_frame (copied : Bool) (payload : Payload) (start : Bool) (s : State) (i : WatchId) :
    State.evaluateWatch copied payload start s i =
      { s with watches := (State.evaluateWatch copied payload start s i).watches
               ringOut := (State.evaluateWatch copied payload start s i).ringOut
               events := (State.evaluateWatch copied payload start s i).events } := by
  unfold State.evaluateWatch
  simp only
  split
  · split <;> rw [State.postWatch_frame]
  · rfl

/-- What the evaluation leaves of the watches. -/
theorem State.evaluateWatch_watches (copied : Bool) (payload : Payload) (start : Bool) (s : State) (i : WatchId) :
    (State.evaluateWatch copied payload start s i).watches =
      if s.watches[i].setup.enabled then
        s.watches.set i (Watch.evaluate s.watches[i] payload[s.watches[i].setup.slot] start).1
      else s.watches := by
  unfold State.evaluateWatch
  simp only
  split
  · split <;> rw [State.postWatch_frame]
  · rfl

end Sys2Proof.Machine
end

