-- ==== Sys2Proof/Laws/Frames.lean ====
section
/-! SUPPORT. The frame of each shared operation, said once: the state after it is the state before it but for the fields that
the equation names. A proof that needs another field rewrites with the equation and never unfolds the operation. -/

namespace Sys2Proof.Machine

/-! ### The local port -/

theorem State.writeDrop_fields (s : State) (f : LocalSamples) :
    State.writeDrop s f = { s with
      port := { s.port with drop := (Store.write s.port.drop f).1 }
      counters := (State.writeDrop s f).counters
      events := (State.writeDrop s f).events } := by
  unfold State.writeDrop; exact State.dropSlip_frame _ _

theorem State.writeAdd_fields (s : State) (f : LocalSamples) :
    State.writeAdd s f = { s with
      port := { s.port with add := (Store.write s.port.add f).1 }
      counters := (State.writeAdd s f).counters
      events := (State.writeAdd s f).events } := by
  unfold State.writeAdd; exact State.addSlip_frame _ _

theorem State.readAdd_fields (s : State) :
    (State.readAdd s).2 = { s with
      port := { s.port with add := (Store.read s.port.add s.ringOut.idleWord).1 }
      counters := (State.readAdd s).2.counters
      events := (State.readAdd s).2.events } := by
  unfold State.readAdd; exact State.addSlip_frame _ _

/-- An emitted frame mark touches the Local Port and the Event Unit alone (R33). -/
theorem State.mark_frame (s : State) :
    State.mark s = { s with port := (State.mark s).port, events := (State.mark s).events } := by
  unfold State.mark
  rw [State.watchdogMark_frame]

/-- The watchdog's share of a mark touches the Local Port and the Event Unit alone (R85). -/
theorem State.watchdogShare_frame (s : State) :
    State.watchdogShare s = { s with port := (State.watchdogShare s).port, events := (State.watchdogShare s).events } := rfl

/-! ### The receive side -/

theorem State.abortReceive_frame (s : State) : State.abortReceive s = { s with service := (State.abortReceive s).service } := by
  unfold State.abortReceive; split <;> rfl

theorem State.abortCounted_frame (s : State) :
    State.abortCounted s = { s with
      service := (State.abortCounted s).service
      counters := (State.abortCounted s).counters } := by
  unfold State.abortCounted
  split
  · rw [State.abortReceive_frame]; rfl
  · rfl

theorem State.transitOverflow_frame (s : State) :
    State.transitOverflow s = { s with
      service := (State.transitOverflow s).service
      counters := (State.transitOverflow s).counters
      events := (State.transitOverflow s).events } := by
  unfold State.transitOverflow
  rw [State.abortReceive_frame]; rfl

theorem State.takeFirst_frame (s : State) (o : List Octet) :
    State.takeFirst s o = { s with
      service := (State.takeFirst s o).service
      counters := (State.takeFirst s o).counters
      events := (State.takeFirst s o).events } := by
  unfold State.takeFirst
  split
  · rfl
  · split
    · rfl
    · exact State.transitOverflow_frame s
  · split
    · rfl
    · exact State.transitOverflow_frame s

theorem State.storeTransit_frame (s : State) (r : Receiving) (o : List Octet) :
    State.storeTransit s r o = { s with
      service := (State.storeTransit s r o).service
      counters := (State.storeTransit s r o).counters
      events := (State.storeTransit s r o).events } := by
  unfold State.storeTransit
  split
  · rfl
  · exact State.transitOverflow_frame s

theorem State.takeMore_frame (s : State) (o : List Octet) :
    State.takeMore s o = { s with
      service := (State.takeMore s o).service
      counters := (State.takeMore s o).counters
      events := (State.takeMore s o).events
      choices := (State.takeMore s o).choices } := by
  unfold State.takeMore
  split
  · rfl
  · split <;> rfl
  · rw [State.storeTransit_frame]
  · split
    · split
      · rw [State.storeTransit_frame]; rfl
      · rw [State.transitOverflow_frame]; rfl
    · rw [State.storeTransit_frame]

/-! ### The Map Store and the Watch Unit on a classified frame -/

/-- The Map Store's test touches the Map Store and the Event Unit alone (R62 to R66). -/
theorem State.fireSwitch_frame (rt : Bool) (s : State) :
    State.fireSwitch rt s = { s with
      mapStore := (State.fireSwitch rt s).mapStore
      events := (State.fireSwitch rt s).events } := by
  unfold State.fireSwitch
  split
  · simp only []
    split <;> rfl
  · rfl

theorem RingOut.noteStatus_frame (r : RingOut) (i : WatchId) (st : WatchStatus) :
    RingOut.noteStatus r i st = { r with copies := (RingOut.noteStatus r i st).copies } := by
  unfold RingOut.noteStatus; split <;> rfl

theorem State.evaluateWatch_fields (copied : Bool) (p : Payload) (start : Bool) (s : State) (i : WatchId) :
    State.evaluateWatch copied p start s i = { s with
      watches := (State.evaluateWatch copied p start s i).watches
      ringOut := { s.ringOut with copies := (State.evaluateWatch copied p start s i).ringOut.copies }
      events := (State.evaluateWatch copied p start s i).events } := by
  unfold State.evaluateWatch
  simp only []
  split
  · rw [State.postWatch_frame]
    split
    · rw [RingOut.noteStatus_frame]
    · rfl
  · rfl

/-- The evaluation of the watches touches the watches, the statuses noted in the copies that are due, and the Event Unit
alone (R93 to R100). -/
theorem State.evaluateWatches_frame (copied : Bool) (p : Payload) (start : Bool) (s : State) :
    State.evaluateWatches copied p start s = { s with
      watches := (State.evaluateWatches copied p start s).watches
      ringOut := { s.ringOut with copies := (State.evaluateWatches copied p start s).ringOut.copies }
      events := (State.evaluateWatches copied p start s).events } := by
  unfold State.evaluateWatches
  generalize List.finRange 16 = is
  induction is generalizing s with
  | nil => rfl
  | cons i is ih =>
    rw [List.foldl_cons, ih, State.evaluateWatch_fields]

/-- Where no watch is enabled, the Watch Unit leaves the node as it is (R91, R93). -/
theorem State.watchFrame_quiet (copied rt : Bool) (f : Frame) (s : State) (h : rt = false ∨ ∀ i : WatchId, s.watches[i].setup.enabled = false) :
    State.watchFrame copied rt f s = s := by
  unfold State.watchFrame
  split
  · have h := h.resolve_left (by simp_all)
    unfold State.evaluateWatches
    generalize List.finRange 16 = is
    induction is with
    | nil => rfl
    | cons i is ih =>
      rw [List.foldl_cons]
      have : State.evaluateWatch copied f.payload (FrameNumber.isStart s.aligner.flywheel) s i = s := by
        simp only [State.evaluateWatch, h i, Bool.false_eq_true, if_false]
      rw [this, ih]
  · rfl

/-- Where no switch is pending, the Map Store leaves the node as it is (R62). -/
theorem State.fireSwitch_quiet (rt : Bool) (s : State)
    (h : rt = false ∨ ∀ target, s.mapStore.shadow = .pending target → s.aligner.flywheel.index ≠ 0#4) :
    State.fireSwitch rt s = s := by
  unfold State.fireSwitch
  split
  · rename_i hs
    simp only [FrameNumber.isStart, Bool.and_eq_true, decide_eq_true_eq] at hs
    have h := h.resolve_left (by simp [hs.1])
    rcases MapStore.fire_cases s.mapStore s.aligner.flywheel.superframe with ⟨_, hf⟩ | ⟨t, ht, _⟩ | ⟨t, ht, _⟩ | ⟨t, ht, _⟩
    · simp only [hf]
    · exact absurd hs.2 (h t ht)
    · exact absurd hs.2 (h t ht)
    · exact absurd hs.2 (h t ht)
  · rfl

/-! ### The aligner -/

theorem State.learnPosition_frame (s : State) (hop : BitVec 6) :
    State.learnPosition s hop = { s with
      aligner := { s.aligner with position := (State.learnPosition s hop).aligner.position }
      events := (State.learnPosition s hop).events } := by
  unfold State.learnPosition
  split
  · split <;> rfl
  · rfl

theorem State.updateLastUf_frame (s : State) (uf : Bool) :
    State.updateLastUf s uf = { s with
      aligner := { s.aligner with lastUf := (State.updateLastUf s uf).aligner.lastUf }
      events := (State.updateLastUf s uf).events } := by
  unfold State.updateLastUf
  split <;> rfl

/-- Leaving ALIGNED touches the aligner, the mark that the next frame has a copy, the receive side, the counters and the Event
Unit (R14, R20, R113). -/
theorem State.leaveAligned_frame (s : State) (st : AlignState) :
    State.leaveAligned s st = { s with
      aligner := Aligner.countsCleared s.aligner st
      ringOut := { s.ringOut with copyArriving := false }
      service := (State.leaveAligned s st).service
      counters := (State.leaveAligned s st).counters
      events := (State.leaveAligned s st).events } := by
  unfold State.leaveAligned
  rw [State.abortCounted_frame]; rfl

/-! ### Ring-out -/

/-- What the arbiter gives touches the Service Channel Unit, the marks of the queued replies and the Event Unit alone (R124 to
R126, R160). -/
def Given.keeps (g : Given) (s : State) : Prop :=
  g.after = { s with
    service := g.after.service
    engine := { s.engine with replies := g.after.engine.replies }
    events := g.after.events }

theorem State.giveTransit_keeps (s : State) : Given.keeps (State.giveTransit s) s := by
  unfold Given.keeps State.giveTransit
  split
  · rfl
  · split
    · split <;> rfl
    · split <;> rfl

theorem State.giveOwn_keeps (s : State) (o : PacketOwner) (p : Packet) (sent : Nat) (part : OwnPart) :
    Given.keeps (State.giveOwn s o p sent part) s := by
  unfold Given.keeps State.giveOwn
  simp only []
  split <;> rfl

theorem State.beginOwn_keeps (s : State) : Given.keeps (State.beginOwn s) s := by
  unfold State.beginOwn
  split
  · unfold Given.keeps
    rw [State.giveOwn_keeps]
  · split
    · unfold Given.keeps
      rw [State.giveOwn_keeps]
    · rfl

theorem State.choose_keeps (s : State) : Given.keeps (State.choose s) s := by
  unfold State.choose
  split
  · rfl
  · exact State.giveTransit_keeps s
  · exact State.giveOwn_keeps _ _ _ _ _
  · split
    · exact State.beginOwn_keeps s
    · split
      · exact State.giveTransit_keeps s
      · split
        · exact State.beginOwn_keeps s
        · rfl

theorem State.arbitrate_keeps (s : State) : Given.keeps (State.arbitrate s) s := by
  unfold Given.keeps State.arbitrate
  simp only []
  rw [State.choose_keeps]

/-- Settling the arbiter's last choice touches the wait count and the note of that choice alone (R124). -/
theorem State.settleChoice_frame (s : State) :
    State.settleChoice s = { s with service := { s.service with
      waitCount := (State.settleChoice s).service.waitCount
      openChoice := none } } := by
  unfold State.settleChoice
  split
  · rfl
  · rename_i h; rw [← h]

/-- What was settled changes no packet that is ready (R124). -/
theorem State.settleChoice_ownReady (s : State) : State.ownReady (State.settleChoice s) = State.ownReady s := by
  rw [State.settleChoice_frame]; rfl

/-- Keeping a choice open changes the note of it alone (R124). -/
theorem Given.noted_frame (g : Given) (n : Nat) :
    Given.noted g n = { g.after with service := { g.after.service with
      openChoice := (Given.noted g n).service.openChoice } } := rfl

/-- The start of an emitted frame leaves the aligner, the Map Store, the watches, the requests, the copies that are due and the
idle word as they were (R33, R45, R73, R79, R124). -/
theorem State.emit_frame (s : State) (f : FrameSource) :
    State.emit s f = { s with
      ringOut := { s.ringOut with current := (State.emit s f).ringOut.current }
      lastGood := (State.emit s f).lastGood
      port := (State.emit s f).port
      service := (State.emit s f).service
      engine := { s.engine with replies := (State.emit s f).engine.replies }
      events := (State.emit s f).events
      counters := (State.emit s f).counters
      choices := (State.emit s f).choices } := by
  unfold State.emit
  simp only [State.place, State.draw]
  rw [State.readAdd_fields, State.followFrameStart_frame, Given.noted_frame, State.arbitrate_keeps, State.mark_frame]

/-- The completion of a payload touches the frame in progress, the port, the counters, the Event Unit and the arbiter's choice
for the frame alone (R51, R76, R124). -/
theorem State.finishPayload_frame (s : State) :
    State.finishPayload s = { s with
      ringOut := { s.ringOut with current := (State.finishPayload s).ringOut.current }
      port := (State.finishPayload s).port
      service := { s.service with
        waitCount := (State.finishPayload s).service.waitCount
        openChoice := (State.finishPayload s).service.openChoice }
      counters := (State.finishPayload s).counters
      events := (State.finishPayload s).events } := by
  unfold State.finishPayload
  split
  · split
    · rfl
    · simp only []
      rw [State.writeDrop_fields, State.settleChoice_frame, State.settleLocalStart_frame]
  · rfl

end Sys2Proof.Machine
end

