-- ==== Sys2Proof/Laws/Requests.lean ====
section
/-! SUPPORT. What the delivery of a request comes to, said once: taken and answered at once, queued, or discarded. -/

namespace Sys2Proof.Machine

/-- Each operation is the one that its number names (spec/12 12.8). -/
@[simp] theorem operationOf_number (op : Operation) : operationOf (Operation.number op) = some op := by
  cases op <;> rfl

/-- A state whose request queue is empty is the state with that queue emptied. -/
theorem State.requests_eq (s : State) (h : s.engine.requests = []) :
    { s with engine := { s.engine with requests := [] } } = s := by
  obtain ⟨rn, ro, al, ms, lg, po, wa, se, ⟨ad, rq, rp, rc, bc, pr⟩, ev, co, ch, pe⟩ := s
  subst h; rfl

@[simp] theorem State.joined_requests (s : State) (r : Request) :
    (State.joined s r).engine.requests = s.engine.requests ++ [r] := rfl
@[simp] theorem State.joined_replies (s : State) (r : Request) : (State.joined s r).engine.replies = s.engine.replies := rfl
@[simp] theorem State.joined_resetPending (s : State) (r : Request) :
    (State.joined s r).engine.resetPending = s.engine.resetPending := rfl
@[simp] theorem State.joined_resetN (s : State) (r : Request) : (State.joined s r).resetN = s.resetN := rfl
@[simp] theorem State.numbered_engine (s : State) : (State.numbered s).engine = s.engine := rfl
@[simp] theorem State.numbered_resetN (s : State) : (State.numbered s).resetN = s.resetN := rfl
@[simp] theorem State.numbered_counters (s : State) : (State.numbered s).counters = s.counters := rfl
@[simp] theorem State.numbered_events (s : State) : (State.numbered s).events = s.events := rfl
@[simp] theorem State.numberUsed_broadcast (s : State) : State.numberUsed s .broadcast = State.numbered s := rfl

/-- What an arrival can do (R133 to R135): nothing, a drop that is counted and recorded, or a joining and one taking. -/
theorem State.arrive_eq (s : State) (r : Request) :
    (Request.discardedBroadcast r = true ∨ Engine.holdsDuplicate s.engine r = true) ∧ State.arrive s r = s ∨
      Request.discardedBroadcast r = false ∧ Engine.holdsDuplicate s.engine r = false ∧
        (4 ≤ s.engine.requests.length ∧
            State.arrive s r = State.post (State.count s .requestsDropped) .requestDropped none none ∨
          s.engine.requests.length ≤ 3 ∧ State.arrive s r = State.take (State.joined s r)) := by
  unfold State.arrive
  split
  · exact .inl ⟨.inl ‹_›, rfl⟩
  · split
    · exact .inl ⟨.inr ‹_›, rfl⟩
    · refine .inr ⟨by simpa using ‹¬Request.discardedBroadcast r = true›, by simpa using ‹¬Engine.holdsDuplicate _ r = true›, ?_⟩
      split
      · exact .inl ⟨‹_›, rfl⟩
      · exact .inr ⟨by omega, rfl⟩

/-- A head that may not be taken waits (R136). -/
theorem State.take_waits (s : State) (r : Request) (rest : List Request) (h : s.engine.requests = r :: rest)
    (hm : Engine.mayTake s.engine r = false) : State.take s = s := by
  simp [State.take, h, hm]

/-- While a reset is pending nothing is taken (R136, R149). -/
theorem State.take_pending (s : State) (h : s.engine.resetPending ≠ none) : State.take s = s := by
  cases hq : s.engine.requests with
  | nil => simp [State.take, hq]
  | cons r rest =>
    refine State.take_waits s r rest hq ?_
    cases hp : s.engine.resetPending with
    | none => exact absurd hp h
    | some p => simp [Engine.mayTake, hp]

/-- A delivered addressed request that the node may take at once is taken: validation and execution give the answer `a`, whose
reply is built and appended, and the Event Unit is told (R136 to R140). -/
theorem State.deliver_ready (s : State) (d : Delivery) (op : Operation) (params : List Octet)
    (h : State.AddressedReady s d) (hp : params.length ≤ 56) :
    ∃ destination, State.consumedAs s d.form = some destination ∧
      State.deliver s d op params =
        (let r := Delivery.request d destination .addressed op params
         let a := answer r s
         let u := State.replied r a
         { u with events := EventUnit.requestTaken u.engine.address u.events }) := by
  obtain ⟨hr, hf, hc, hq, hpend, hlen, hmiss⟩ := h
  obtain ⟨dest, hdest⟩ := Option.isSome_iff_exists.mp hc
  refine ⟨dest, hdest, ?_⟩
  have hnot : ¬56 < params.length := by omega
  have hs := State.requests_eq s hq
  have hcls : State.classFor s d.form = .addressed := by
    cases hform : d.form <;> simp_all [State.classFor]
  have hnum : State.numberUsed s d.form = s := by
    cases hform : d.form <;> simp_all [State.numberUsed]
  have hmt : Engine.mayTake { s.engine with requests := [Delivery.request d dest .addressed op params] }
      (Delivery.request d dest .addressed op params) = true := by
    simp [Engine.mayTake, hpend, hlen, Delivery.request]
  have hha : State.handleAddressed s (Delivery.request d dest .addressed op params) =
      State.replied (Delivery.request d dest .addressed op params) (answer (Delivery.request d dest .addressed op params) s) := by
    unfold State.handleAddressed
    cases hca : s.engine.replyCache with
    | none => rfl
    | some p =>
      have : p.sequence ≠ d.sequence := by simpa [Engine.cacheMisses, hca] using hmiss
      simp [this, Delivery.request]
  simp only [State.deliver, hr, hdest, hnot, hcls, hnum, Bool.not_true, if_false, Bool.false_eq_true]
  change State.arrive s (Delivery.request d dest .addressed op params) = _
  have hdb : Request.discardedBroadcast (Delivery.request d dest .addressed op params) = false := rfl
  have hdup : Engine.holdsDuplicate s.engine (Delivery.request d dest .addressed op params) = false := by
    simp [Engine.holdsDuplicate, hq]
  simp only [State.arrive, hdb, hdup, hq, Bool.false_eq_true, if_false, List.length_nil, List.nil_append]
  simp only [Nat.reduceLeDiff, if_false, State.take, hmt, if_true]
  rw [hs]
  have hc' : (Delivery.request d dest .addressed op params).cls = .addressed := rfl
  simp only [State.handle, hc', hha]

/-- The same, in the terms of the claims: the answer's code, contents and state give the state after the delivery. -/
theorem State.deliver_answered (s : State) (d : Delivery) (op : Operation) (params : List Octet) (a : Answer)
    (h : State.AddressedReady s d) (hp : params.length ≤ 56)
    (ha : ∀ destination, answer (Delivery.request d destination .addressed op params) s = a) :
    State.deliver s d op params =
      State.answered a.after d op a.code a.contents (decide (op = .resetNode) && decide (a.code = .ok)) := by
  obtain ⟨dest, -, hd⟩ := State.deliver_ready s d op params h hp
  simp only [hd, ha]
  have : (operationOf (Delivery.request d dest .addressed op params).packet.operation) = some op := operationOf_number op
  simp only [State.replied, State.answered, State.appendReply, isResetReply, this, replyTo, replyPacket, State.ownStation, hopOf,
    Option.some.injEq]
  rfl

end Sys2Proof.Machine
end

