-- ==== Sys2Proof/Laws/Transit.lean ====
section
/-! SUPPORT. The transit queue: what filling, completing, abandoning and emitting a packet do to it (R119 to R123), and that each
keeps `ServiceChannel.Sound`. -/

namespace Sys2Proof.Machine

/-! ### The newest packet -/

@[simp] theorem changeNewest_append (q : List TransitPacket) (p : TransitPacket) (f : TransitPacket → Option TransitPacket) :
    changeNewest (q ++ [p]) f = q ++ (f p).toList := by
  simp [changeNewest]

@[simp] theorem changeNewest_nil (f : TransitPacket → Option TransitPacket) : changeNewest [] f = [] := rfl

theorem transitTotal_append (q r : List TransitPacket) : transitTotal (q ++ r) = transitTotal q + transitTotal r := by
  simp [transitTotal]

@[simp] theorem transitTotal_nil : transitTotal [] = 0 := rfl

@[simp] theorem transitTotal_cons (p : TransitPacket) (q : List TransitPacket) :
    transitTotal (p :: q) = p.held.length + transitTotal q := by
  simp [transitTotal]

/-- The octets of a segment enter the queue whole (R120). -/
theorem transitTotal_grown (q : List TransitPacket) (p : TransitPacket) (os : List Octet) :
    transitTotal (changeNewest (q ++ [p]) (TransitPacket.grown os)) = transitTotal (q ++ [p]) + os.length := by
  simp [transitTotal_append, TransitPacket.grown]; omega

/-- While a packet is being filled the queue ends with an incomplete packet (R119). -/
theorem ServiceChannel.newest_of_filling (c : ServiceChannel) (h : ServiceChannel.Sound c)
    (hf : ServiceChannel.filling c = true) :
    ∃ q p, c.transit = q ++ [p] ∧ p.mark = .incomplete := by
  have h5 := h.2.2.2.2.1
  rw [hf] at h5
  rcases List.eq_nil_or_concat c.transit with hn | ⟨q, p, hq⟩
  · rw [hn] at h5; simp at h5
  · rw [hq] at h5
    exact ⟨q, p, by simpa using hq, by simpa using h5⟩

/-! ### The queue's conditions, packet by packet -/

/-- The conditions of `ServiceChannel.Sound` on a queue that ends with `p`, over the packets before it. -/
theorem queue_sound_append (q : List TransitPacket) (p : TransitPacket) (em : InEmission) (b : Bool)
    (h : (q ++ [p]).all TransitPacket.sound = true ∧ (∀ x ∈ (q ++ [p]).dropLast, x.mark ≠ .incomplete) ∧
      ((q ++ [p]).getLast?.any (fun x => x.mark = .incomplete) = b) ∧ (∀ x ∈ (q ++ [p]).tail, x.forwarded = 0) ∧
      ((q ++ [p]).head?.any (fun x => x.forwarded ≠ 0) = decide (em = .transit))) :
    (∀ x ∈ q, TransitPacket.sound x = true) ∧ TransitPacket.sound p = true ∧ (∀ x ∈ q, x.mark ≠ .incomplete) ∧
      (decide (p.mark = .incomplete) = b) := by
  obtain ⟨h1, h2, h3, _, _⟩ := h
  simp only [List.all_append, List.all_cons, List.all_nil, Bool.and_true, Bool.and_eq_true, List.all_eq_true,
    List.dropLast_concat] at h1 h2
  exact ⟨h1.1, h1.2, h2, by simpa using h3⟩

/-- The newest packet replaced by one that has forwarded as much. -/
theorem ServiceChannel.replaceNewest_sound (c : ServiceChannel) (q : List TransitPacket) (p p' : TransitPacket)
    (r : Receiving) (h : ServiceChannel.Sound c) (hq : c.transit = q ++ [p]) (hs : TransitPacket.sound p' = true)
    (hf : p'.forwarded = p.forwarded) (ht : transitTotal (q ++ [p']) ≤ 256) (ha : (Receiving.assembly r).length ≤ 64)
    (hm : decide (p'.mark = .incomplete) = ServiceChannel.filling { c with receiving := r, transit := q ++ [p'] }) :
    ServiceChannel.Sound { c with receiving := r, transit := q ++ [p'] } := by
  obtain ⟨h1, h2, h3, h4, h5, h6, h7, h8⟩ := h
  rw [hq] at h3 h4 h5 h6 h7
  obtain ⟨g1, _, g3, _⟩ := queue_sound_append q p c.emission _ ⟨h3, h4, h5, h6, h7⟩
  refine ⟨ht, ha, ?_, ?_, ?_, ?_, ?_, h8⟩
  · simp only [List.all_append, List.all_cons, List.all_nil, Bool.and_true, Bool.and_eq_true, List.all_eq_true]
    exact ⟨g1, hs⟩
  · simpa using g3
  · simpa using hm
  · cases q with
    | nil => simp
    | cons a q =>
      simp only [List.cons_append, List.tail_cons, List.mem_append, List.mem_singleton] at h6 ⊢
      rintro x (hx | rfl)
      · exact h6 x (.inl hx)
      · rw [hf]; exact h6 p (.inr rfl)
  · cases q with
    | nil => simpa [hf] using h7
    | cons a q => simpa using h7

/-- The newest packet, none of which has been forwarded, taken out of the queue (R121). -/
theorem ServiceChannel.removeNewest_sound (c : ServiceChannel) (q : List TransitPacket) (p : TransitPacket)
    (h : ServiceChannel.Sound c) (hq : c.transit = q ++ [p]) (hf : p.forwarded = 0) :
    ServiceChannel.Sound { c with receiving := .nothing, transit := q } := by
  obtain ⟨h1, h2, h3, h4, h5, h6, h7, h8⟩ := h
  rw [hq] at h1 h3 h4 h5 h6 h7
  obtain ⟨g1, _, g3, _⟩ := queue_sound_append q p c.emission _ ⟨h3, h4, h5, h6, h7⟩
  rw [transitTotal_append] at h1
  refine ⟨by show transitTotal q ≤ 256; omega, by simp [Receiving.assembly], ?_, ?_, ?_, ?_, ?_, h8⟩
  · rw [List.all_eq_true]; exact g1
  · exact fun x hx => g3 x (List.dropLast_subset q hx)
  · rcases List.eq_nil_or_concat q with hn | ⟨q', x, hx⟩
    · rw [hn]; rfl
    · rw [hx]
      have := g3 x (by rw [hx]; simp)
      simpa [ServiceChannel.filling] using this
  · cases q with
    | nil => simp
    | cons a q =>
      simp only [List.cons_append, List.tail_cons, List.mem_append, List.mem_singleton] at h6 ⊢
      exact fun x hx => h6 x (.inl hx)
  · cases q with
    | nil =>
      simp only [List.nil_append, List.head?_cons, Option.any_some, hf] at h7
      simpa using h7
    | cons a q => simpa using h7

/-- A new packet at the end of the queue (R119, R120). -/
theorem ServiceChannel.open_sound (c : ServiceChannel) (os : List Octet) (r : Receiving) (h : ServiceChannel.Sound c)
    (hn : ServiceChannel.filling c = false) (ho : os ≠ []) (hfit : ServiceChannel.fits c os.length = true)
    (ha : (Receiving.assembly r).length ≤ 64)
    (hr : ServiceChannel.filling { c with receiving := r } = true) :
    ServiceChannel.Sound { c with receiving := r, transit := c.transit ++ [TransitPacket.opened os] } := by
  obtain ⟨h1, h2, h3, h4, h5, h6, h7, h8⟩ := h
  rw [hn] at h5
  refine ⟨?_, ha, ?_, ?_, ?_, ?_, ?_, h8⟩
  · have : transitTotal c.transit + os.length ≤ 256 := by simpa [ServiceChannel.fits] using hfit
    simpa [transitTotal_append, TransitPacket.opened] using this
  · simp only [List.all_append, h3, Bool.true_and, List.all_cons, List.all_nil, Bool.and_true]
    simp [TransitPacket.sound, TransitPacket.opened, ho]
  · simp only [List.dropLast_concat]
    intro x hx
    rcases List.eq_nil_or_concat c.transit with he | ⟨q, p, hq⟩
    · rw [he] at hx; cases hx
    · rw [hq] at hx h4 h5
      simp only [List.concat_eq_append, List.mem_append, List.mem_singleton, List.dropLast_concat] at hx h4
      rcases hx with hx | rfl
      · exact h4 x hx
      · simpa using h5
  · simp only [List.getLast?_append, List.getLast?_singleton, Option.some_or, Option.any_some, TransitPacket.opened]
    exact hr.symm
  · cases hc : c.transit with
    | nil => simp
    | cons a q =>
      rw [hc] at h6
      simp only [List.cons_append, List.tail_cons, List.mem_append, List.mem_singleton] at h6 ⊢
      rintro x (hx | rfl)
      · exact h6 x hx
      · rfl
  · cases hc : c.transit with
    | nil => rw [hc] at h7; simpa [TransitPacket.opened] using h7
    | cons a q => rw [hc] at h7; simpa using h7

/-! ### The receive side's steps -/

/-- Aborting the packet in progress (R112, R121). -/
theorem State.abortReceive_sound (s : State) (h : ServiceChannel.Sound s.service) :
    ServiceChannel.Sound (State.abortReceive s).service ∧ (State.abortReceive s).service.receiving = .nothing := by
  unfold State.abortReceive
  have key : ServiceChannel.filling s.service = true →
      ServiceChannel.Sound { s.service with receiving := .nothing,
                                            transit := changeNewest s.service.transit TransitPacket.abandoned } := by
    intro hf
    obtain ⟨q, p, hq, hm⟩ := ServiceChannel.newest_of_filling s.service h hf
    rw [hq, changeNewest_append]
    by_cases h0 : p.forwarded = 0
    · have : TransitPacket.abandoned p = none := by simp [TransitPacket.abandoned, h0]
      rw [this]
      simpa using ServiceChannel.removeNewest_sound s.service q p h hq h0
    · have : TransitPacket.abandoned p = some { p with mark := .aborted } := by simp [TransitPacket.abandoned, h0]
      rw [this]
      refine ServiceChannel.replaceNewest_sound s.service q p _ .nothing h hq ?_ rfl ?_ (by simp [Receiving.assembly]) ?_
      · simp [TransitPacket.sound, h0]
      · have := h.1
        rw [hq] at this
        simpa [transitTotal_append] using this
      · simp [ServiceChannel.filling]
  split
  · rename_i hr; exact ⟨h, hr⟩
  · rename_i a hr
    refine ⟨?_, rfl⟩
    obtain ⟨h1, h2, h3, h4, h5, h6, h7, h8⟩ := h
    refine ⟨h1, by simp [Receiving.assembly], h3, h4, ?_, h6, h7, h8⟩
    have : ServiceChannel.filling s.service = false := by simp [ServiceChannel.filling, hr]
    rw [this] at h5
    simpa [ServiceChannel.filling] using h5
  · rename_i a hr
    exact ⟨key (by simp [ServiceChannel.filling, hr]), rfl⟩
  · rename_i hr
    exact ⟨key (by simp [ServiceChannel.filling, hr]), rfl⟩

/-- After an abort for a cause this node detects, no packet is in progress (R112). -/
theorem State.abortCounted_sound (s : State) (h : ServiceChannel.Sound s.service) :
    ServiceChannel.Sound (State.abortCounted s).service ∧ (State.abortCounted s).service.receiving = .nothing := by
  unfold State.abortCounted
  split
  · exact State.abortReceive_sound s h
  · rename_i hp
    refine ⟨h, ?_⟩
    unfold ServiceChannel.inPacket at hp
    cases hr : s.service.receiving <;> simp_all

/-- Octets into the packet that is being filled, or an overflow (R120). -/
theorem State.storeTransit_sound (s : State) (r : Receiving) (os : List Octet) (h : ServiceChannel.Sound s.service)
    (hf : ServiceChannel.filling s.service = true) (hr : ServiceChannel.filling { s.service with receiving := r } = true)
    (ha : (Receiving.assembly r).length ≤ 64) : ServiceChannel.Sound (State.storeTransit s r os).service := by
  unfold State.storeTransit
  split
  · rename_i hfit
    obtain ⟨q, p, hq, hm⟩ := ServiceChannel.newest_of_filling s.service h hf
    have hs := (queue_sound_append q p s.service.emission _
      (by have := h; rw [ServiceChannel.Sound, hq] at this
          exact ⟨this.2.2.1, this.2.2.2.1, this.2.2.2.2.1, this.2.2.2.2.2.1, this.2.2.2.2.2.2.1⟩)).2.1
    have ht := transitTotal_grown q p os
    show ServiceChannel.Sound { s.service with receiving := r, transit := changeNewest s.service.transit _ }
    rw [hq]
    rw [changeNewest_append] at ht ⊢
    refine ServiceChannel.replaceNewest_sound s.service q p { p with held := p.held ++ os } r h hq ?_ rfl ?_ ha ?_
    · unfold TransitPacket.sound at hs ⊢
      rw [hm] at hs
      simp only [hm]
      rcases Bool.or_eq_true _ _ ▸ hs with h1 | h1
      · simp only [h1, Bool.true_or]
      · simp only [Bool.not_eq_true', List.isEmpty_eq_false_iff] at h1
        simp [h1]
    · have hfit' : transitTotal s.service.transit + os.length ≤ 256 := by simpa [ServiceChannel.fits] using hfit
      rw [hq] at hfit'
      have hg : (TransitPacket.grown os p).toList = [{ p with held := p.held ++ os }] := rfl
      rw [hg] at ht
      rw [ht]; exact hfit'
    · simp only [hm, decide_true]
      cases r <;> simp_all [ServiceChannel.filling]
  · exact (State.abortReceive_sound s h).1

/-! ### The arbiter's open choice -/

theorem State.settleChoice_sound (s : State) (h : ServiceChannel.Sound s.service) :
    ServiceChannel.Sound (State.settleChoice s).service := by
  unfold State.settleChoice
  split
  · obtain ⟨h1, h2, h3, h4, h5, h6, h7, h8, _⟩ := h
    refine ⟨h1, h2, h3, h4, h5, h6, h7, ?_, rfl⟩
    show (if _ then _ else _) ≤ 65
    split
    · exact Nat.min_le_left ..
    · exact h8
  · exact h

/-- Settling the arbiter's choice is what the statements say of it (R124, R125). -/
theorem State.settleChoice_settled (s : State) : State.Settled s (State.settleChoice s) := by
  unfold State.settleChoice
  split
  · rename_i n h
    refine ⟨_, ?_, rfl⟩
    split
    · rename_i hr
      refine .inr ⟨?_, n, h, rfl⟩
      have hr : State.ownReady s = true := (Bool.and_eq_true _ _ ▸ hr).1
      simp only [State.ownReady, Engine.readyReply, Bool.or_eq_true, Option.isSome_iff_ne_none] at hr
      rcases hr with hr | hr
      · left
        rw [ne_eq, List.find?_eq_none] at hr
        simpa using hr
      · exact .inr hr
    · exact .inl rfl
  · rename_i h
    refine ⟨s.service.waitCount, .inl rfl, ?_⟩
    rw [← h]

theorem Given.noted_sound (g : Given) (n : Nat) (hn : n ≤ 65) (h : ServiceChannel.Sound g.after.service) :
    ServiceChannel.Sound (Given.noted g n).service := by
  obtain ⟨h1, h2, h3, h4, h5, h6, h7, h8, _⟩ := h
  refine ⟨h1, h2, h3, h4, h5, h6, h7, h8, ?_⟩
  show Option.all _ (if _ then some n else none) = true
  split
  · simpa using hn
  · rfl

end Sys2Proof.Machine
end

