-- ==== Sys2Proof/WellFormed.lean ====
section
/-! DEFINITION. Which commands the block's outside can send: the checks on their operands. -/

namespace Sys2Proof

/-- At most 56 parameter octets: what a packet's parameter length can say (R131). -/
def paramsFit (params : List Octet) : Bool := params.length ≤ 56

/-- Whether a command's operands are such as the outside of the block can present. A frame due without a clock lacks at least
one of its 1240 bits (R13); a candidate begins with the sync word (R16); a request has at most 56 parameter octets
(R131). -/
def Instr.wellFormed : Instr → Bool
  | .powerOn _ _ => true
  | .hardwareResetAssert => true
  | .hardwareResetRelease _ => true
  | .signalLost => true
  | .signalBack => true
  | .frameDueWithoutClock received => received.length < 1240
  | .huntCandidate none => true
  | .huntCandidate (some f) => f.sync = Machine.syncWord
  | .confirmFrame _ => true
  | .frameClassified _ => true
  | .substituteFrameStart => true
  | .forwardedFrameStart => true
  | .payloadComplete => true
  | .ownPacketComplete => true
  | .forwardedEndReport _ => true
  | .localFrameStart => true
  | .localFrameComplete _ => true
  | .localTimingLost => true
  | .retryTimerExpiry _ => true
  | .takeRequest => true
  | .identify _ params => paramsFit params
  | .assignAddress _ params => paramsFit params
  | .readStatus _ params => paramsFit params
  | .setIdleWord _ _ => true
  | .setQualityThreshold _ _ => true
  | .setForcedRehunt _ _ => true
  | .setLocalMode _ _ => true
  | .setRetryTime _ _ => true
  | .writeMap _ params => paramsFit params
  | .readMap _ params => paramsFit params
  | .copyActive _ params => paramsFit params
  | .checkMap _ params => paramsFit params
  | .scheduleSwitch _ params => paramsFit params
  | .cancelSwitch _ params => paramsFit params
  | .writeWatch _ params => paramsFit params
  | .readWatch _ params => paramsFit params
  | .writeEventSetup _ params => paramsFit params
  | .readClass _ params => paramsFit params
  | .discardClass _ params => paramsFit params
  | .readCounters _ _ => true
  | .readCountersClear _ _ => true
  | .resetNodeCold _ => true
  | .resetNodeWarm _ => true
  | .emittedFrameBoundary => true
  | .writeNodeSetup _ params => paramsFit params

end Sys2Proof
end

