-- ==== Sys2Proof/Tests/Slice0.lean ====
section
/-! SUPPORT. Tests of the model on the worked examples of spec/ and on values worked out by hand from its tables, and for each
statement with hypotheses a witness: a concrete state and operands that meet them, at the boundaries of each clause. -/

namespace Sys2Proof.Tests

open Sys2Proof Sys2Proof.Machine

set_option Elab.async false

/-! ### Helpers -/

/-- A command answers a next state of which `p` holds. -/
def answers (o : Host.Outcome State Fault Refusal) (p : State → Bool) : Bool :=
  match o with
  | .next t => p t
  | .fault _ => false
  | .refused _ => false

/-- A node in ALIGNED at position 3 with address 9; the flywheel's last pair is (13, 1200), as in spec/01 1.9. -/
def node : State :=
  { State.hardware true 0 [] with
    aligner := { Aligner.hardware true with align := .aligned, flywheel := ⟨13#4, 1200#16⟩, position := some 3#6 }
    engine := Engine.cleared (some 9#6) }

/-- The node at the last frame of a superframe `s`: the next frame is a superframe start. -/
def beforeStart (s : Superframe) : State := { node with aligner := { node.aligner with flywheel := ⟨15#4, s⟩ } }

/-- The node with its aligner in another state. -/
def unaligned (a : AlignState) : State :=
  { node with aligner := { node.aligner with align := a, carrier := decide (a ≠ .noSignal) } }

/-- The next expected frame at a node, with a correct check. -/
def nextFrame (s : State) (hop : BitVec 6) (uf em : Bool) (g : Segment) : Frame :=
  Frame.sealed { sync := 0x9C7#12, number := successor s.aligner.flywheel, hop := hop, uf := uf, em := em, service := g
                 payload := Vector.replicate 48 0x000007#24, check := 0#16 }

theorem sealed_check (f : Frame) : (Frame.sealed f).check = checkOf (Frame.covered (Frame.sealed f)) := by
  cases f
  simp only [Frame.sealed, Frame.properCheck, Frame.covered]

theorem nextFrame_check (s : State) (hop : BitVec 6) (uf em : Bool) (g : Segment) :
    (nextFrame s hop uf em g).check = checkOf (Frame.covered (nextFrame s hop uf em g)) := sealed_check _

theorem nextFrame_passes (s : State) (hop : BitVec 6) (uf em : Bool) (g : Segment) :
    Frame.checkPasses (nextFrame s hop uf em g) = true := by
  simp only [Frame.checkPasses, Frame.properCheck, ← nextFrame_check, decide_true]

theorem nextFrame_good (s : State) (hop : BitVec 6) (uf em : Bool) (g : Segment) :
    frameClass (nextFrame s hop uf em g) (successor s.aligner.flywheel) = .good := by
  have hs : Frame.syncFound (nextFrame s hop uf em g) = true := rfl
  have hn : (nextFrame s hop uf em g).number = successor s.aligner.flywheel := rfl
  simp [frameClass, nextFrame_passes, hs, hn]

theorem nextFrame_taken (s : State) (hop : BitVec 6) (uf em : Bool) (g : Segment) (hr : s.resetN = true)
    (ha : s.aligner.align = .aligned) : State.TakesAsGood s (nextFrame s hop uf em g) :=
  ⟨hr, ha, rfl, nextFrame_check _ _ _ _ _, rfl⟩

/-- No watch of the node is enabled and no switch is pending, so that a frame of either UF passes quietly. -/
theorem node_quiet (s : State) (f : Frame) (hw : s.watches = node.watches) (hm : s.mapStore.shadow = .editable) :
    State.PassesQuietly s f := by
  have h : ∀ i : WatchId, node.watches[i].setup.enabled = false := by decide +kernel
  refine .inr ⟨fun i => by rw [hw]; exact h i, fun t ht => ?_⟩
  rw [hm] at ht
  exact nomatch ht

/-- An idle frame with another check than it ought to carry. -/
def damaged (s : State) : Frame :=
  { nextFrame s 2#6 false false idleSegment with check := ~~~(nextFrame s 2#6 false false idleSegment).check }

theorem bv_ne_not (x : BitVec 16) : ~~~x ≠ x := by
  intro h
  have h0 := congrArg (BitVec.getLsbD · 0) h
  simp at h0

theorem damaged_check (s : State) : (damaged s).check ≠ checkOf (Frame.covered (damaged s)) := by
  have h : (damaged s).check = ~~~checkOf (Frame.covered (damaged s)) := by
    simp only [damaged, nextFrame_check, Frame.covered]
  rw [h]
  exact bv_ne_not _

/-- The frame check on octets with the register as a number, so that the kernel computes it step by step. -/
def checkSteps : List Bool → Nat → Nat
  | [], n => n
  | b :: bs, n =>
    match (checkStep (BitVec.ofNat 16 n) b).toNat with
    | 0 => checkSteps bs 0
    | k + 1 => checkSteps bs (k + 1)

theorem checkSteps_eq (bs : List Bool) : ∀ r : BitVec 16, checkSteps bs r.toNat = (bs.foldl checkStep r).toNat := by
  induction bs with
  | nil => intro r; rfl
  | cons b bs ih =>
    intro r
    have h : checkSteps (b :: bs) r.toNat = checkSteps bs (checkStep (BitVec.ofNat 16 r.toNat) b).toNat := by
      rw [checkSteps]; split <;> simp_all
    rw [h, List.foldl_cons, ih, BitVec.ofNat_toNat, BitVec.setWidth_eq]

theorem checkOf_of_steps {bs : List Bool} {c : BitVec 16} (h : checkSteps bs 0xFFFF = c.toNat) : checkOf bs = c := by
  apply BitVec.eq_of_toNat_eq
  rw [checkOf, ← checkSteps_eq, ← h]
  rfl

/-- An addressed delivery in address form, sequence 20, with the arrival facts C = 5200 and ring time (spec/04 4.9). -/
def toAddress : Delivery := { form := .address, source := 0#8, sequence := 20#8, superframe := 5200#16, ringTime := true }

/-- The same delivery in position form. -/
def toPosition : Delivery := { toAddress with form := .position }

/-- The same delivery as a broadcast, sequence 41 (spec/04 4.9). -/
def toAll : Delivery := { toAddress with form := .broadcast, sequence := 41#8 }

/-- The contents of the node's newest reply, the code first. -/
def newest (s : State) : List Octet := match s.engine.replies.getLast? with | some r => r.packet.params | none => []

/-- An emission in progress that ends a packet. -/
def emission (ends : SegmentEnd) (done : Bool) : Emission :=
  { frame := nextFrame node 3#6 false false idleSegment, substitute := false, ends := ends
    drop := Vector.replicate 32 5#24, payloadDone := done }

/-- The node with an emission in progress. -/
def emitting (ends : SegmentEnd) (done : Bool) : State :=
  { node with ringOut := { node.ringOut with current := some (emission ends done) } }

/-- A packet of eight octets. -/
def small : Packet := { destination := 0#8, source := 9#8, kind := 0x02#8, sequence := 7#8, operation := 0x01#8, params := [] }

/-- A queued request of an operation number, as an addressed one or as a broadcast. -/
def queued (cls : RequestClass) (operation : Octet) (params : List Octet) : Request :=
  { packet := { small with kind := 0x01#8, operation := operation, params := params }, cls := cls, superframe := 5#16
    ringTime := true }

/-- A reply that waits. -/
def reply (begun isReset : Bool) : Reply := { packet := small, begun := begun, isReset := isReset, ofCache := false }

/-- A class's service state with one carried record. -/
def inService (sequence : Octet) (retries : Nat) (timer : Option Nat) (due : Bool) : InService :=
  { packet := { small with kind := 0x03#8, sequence := sequence }, carried := 1, snapshot := 0#8, retries := retries
    timer := timer, resendDue := due }

/-- A record of a kind. -/
def record (k : EventKind) : EventRecord :=
  { kind := k, source := none, superframe := 1200#16, occurrences := 1#8, value := none }

/-- A frame for the local port. -/
def local32 (x : Sample) : LocalSamples := Vector.replicate 32 x

/-- The node in EXTERNAL with both stores as given. -/
def external (drop add : Store) : State := { node with port := { node.port with mode := .external, drop := drop, add := add } }

/-- A store. -/
def store (st : StoreState) (frames : List LocalSamples) (last : Option LocalSamples) : Store :=
  { state := st, frames := frames, last := last }

/-! ### Operands that the outside of the block cannot present -/

theorem test_wf_whole_frame_refused : (Instr.frameDueWithoutClock (List.replicate 1240 false)).wellFormed = false := by
  decide +kernel

theorem test_wf_frame_lacks_a_bit : (Instr.frameDueWithoutClock (List.replicate 1239 false)).wellFormed = true := by
  decide +kernel

theorem test_wf_candidate_without_sync_refused :
    (Instr.huntCandidate (some { nextFrame node 2#6 false false idleSegment with sync := 0x9C5#12 })).wellFormed = false := by
  decide +kernel

theorem test_wf_57_parameters_refused : (Instr.identify toAddress (List.replicate 57 0#8)).wellFormed = false := by
  decide +kernel

theorem test_no_word_spells_a_command (nbits w : Nat) : decodeTableWord nbits w = none := rfl

/-! ### Formats -/

/-- The published check value of this generator and preset over the nine octets 31h to 39h. -/
theorem test_check_of_nine_octets :
    octetsCheck [0x31#8, 0x32#8, 0x33#8, 0x34#8, 0x35#8, 0x36#8, 0x37#8, 0x38#8, 0x39#8] = 0x29B1#16 := by decide +kernel

/-- Control octet 23h: a MIDDLE segment with three octets (spec/12 12.2). -/
theorem test_segment_middle :
    Segment.build .middle [1#8, 2#8, 3#8] = { control := 0x23#8, data1 := 1#8, data2 := 2#8, data3 := 3#8 } ∧
      Segment.read { control := 0x2F#8, data1 := 1#8, data2 := 2#8, data3 := 3#8 } = some (.middle, [1#8, 2#8, 3#8]) ∧
      Segment.read { control := 0x20#8, data1 := 1#8, data2 := 2#8, data3 := 3#8 } = none := by decide +kernel

/-! ### Ring-in -/

/-- spec/01 1.9, frame b: CHECK, consecutive-bad count 1. -/
theorem test_frame_b_fails_check :
    answers (exec (.frameClassified (damaged node)) node)
      (fun t => t.counters[0] = 1#16 && t.aligner.consecutiveBad = 1 && t.aligner.flywheel = ⟨14#4, 1200#16⟩) = true := by
  have h : frameClass (damaged node) (successor node.aligner.flywheel) = .check := by
    have hc : Frame.checkPasses (damaged node) = false := by
      exact decide_eq_false fun h => damaged_check node h.symm
    simp only [frameClass, hc]; rfl
  simp only [exec, execFrameClassified, takenWhen, State.classify, State.handOn, h]
  generalize Config.handOnOrder _ = o
  revert o
  decide +kernel

/-- R125, R29: the choice for an emitted frame in progress is past when a received frame is classified. -/
theorem test_choice_is_settled_at_a_classification :
    answers (exec (.frameClassified (damaged node)) { node with service := { node.service with openChoice := some 7 } })
      (fun t => t.service.openChoice = none && t.service.waitCount = 0) = true := by
  have h : frameClass (damaged node) (successor node.aligner.flywheel) = .check := by
    have hc : Frame.checkPasses (damaged node) = false := by
      exact decide_eq_false fun h => damaged_check node h.symm
    simp only [frameClass, hc]; rfl
  simp only [exec, execFrameClassified, takenWhen, State.classify, State.handOn, h]
  generalize Config.handOnOrder _ = o
  revert o
  decide +kernel

/-- spec/01 1.9, frame e: good with UF 1, recorded as UPSTREAM_FAULT in class 1; the position is not taught. -/
theorem test_frame_e_records_upstream_fault :
    answers (exec (.frameClassified (nextFrame node 2#6 true false idleSegment)) node)
      (fun t => t.aligner.lastUf && t.aligner.position = some 3#6 && t.events.queues[1].map (·.kind) = [.upstreamFault]) =
      true := by
  simp only [exec, execFrameClassified, takenWhen, State.classify, State.handOn, State.takeClassified, nextFrame_good]
  generalize Config.handOnOrder _ = o
  revert o
  decide +kernel

/-- spec/02 2.11: the carrier goes in ALIGNED; SIGNAL_LOST stands before ALIGN_LOST in class 0. -/
theorem test_signal_lost :
    answers (exec .signalLost node)
      (fun t => t.aligner.align = .noSignal && t.events.queues[0].map (·.kind) = [.signalLost, .alignLost] &&
        t.counters[4] = 1#16 && t.aligner.flywheel = ⟨13#4, 1200#16⟩) = true := by decide +kernel

theorem test_signal_back :
    answers (exec .signalBack (unaligned .noSignal))
      (fun t => t.aligner.align = .hunt && t.events.queues[1].map (·.kind) = [.signalBack]) = true := by decide +kernel

/-- spec/02 2.11: an all-zero frame fails its sync test first. -/
theorem test_frame_without_any_bit :
    answers (exec (.frameDueWithoutClock []) node) (fun t => t.counters[1] = 1#16 && t.counters[0] = 0#16) = true := by
  have h : frameClass (Frame.ofBits []) (successor node.aligner.flywheel) = .sync := by decide +kernel
  simp only [exec, execFrameDueWithoutClock, takenWhen, State.classify, State.handOn, h]
  generalize Config.handOnOrder _ = o
  revert o
  decide +kernel

/-- spec/02 2.11: a candidate whose check passes is accepted and loads the flywheel. -/
theorem test_candidate_is_accepted :
    answers (exec (.huntCandidate (some (nextFrame (beforeStart 4000#16) 2#6 false false idleSegment))) (unaligned .hunt))
      (fun t => t.aligner.align = .confirm && t.aligner.flywheel = ⟨0#4, 4001#16⟩ && t.aligner.confirmCount = 0) = true := by
  simp only [exec, execHuntCandidate, takenWhen, State.huntFor, nextFrame_passes]
  decide +kernel

/-- spec/02 2.11: the second confirming frame gains alignment. -/
theorem test_second_confirming_frame :
    answers (exec (.confirmFrame (nextFrame (unaligned .confirm) 2#6 false false idleSegment))
        { unaligned .confirm with aligner := { (unaligned .confirm).aligner with confirmCount := 1 } })
      (fun t => t.aligner.align = .aligned && t.events.queues[1].map (·.kind) = [.alignGained]) = true := by
  have h : State.confirms { unaligned .confirm with aligner := { (unaligned .confirm).aligner with confirmCount := 1 } }
      (nextFrame (unaligned .confirm) 2#6 false false idleSegment) = true := by
    simp only [State.confirms, nextFrame_passes]; rfl
  have e : ∀ (s : State) (f : Frame), s.aligner.keptBits = [] → State.confirmWith s f = State.testFrame s f [] := by
    intro s f hs; simp only [State.confirmWith, frameThrough, hs, List.drop_nil]
  simp only [exec, execConfirmFrame, takenWhen]
  rw [e _ _ rfl]
  simp only [State.testFrame, h]
  decide +kernel

/-! ### The map -/

/-- The shadow bank of spec/03 3.7. -/
def conflicting : Bank :=
  ((((passBank.set 5 ⟨.tap 9, .hold⟩).set 12 ⟨.terminate 3, .idle⟩).set 20 ⟨.tap 3, .zero⟩).set 30 ⟨.tap 9, .hold⟩).set 41
    ⟨.tap 3, .hold⟩

/-- spec/03 3.7: CONFLICT, channel 3, slots 12 and 20. -/
theorem test_check_map_reports_the_conflict :
    answers (exec (.checkMap toAddress []) { node with mapStore := { node.mapStore with bankB := conflicting } })
      (fun t => newest t = [0x05#8, 3#8, 12#8, 20#8] && t.mapStore.shadow = .editable) = true := by decide +kernel

/-- spec/03 3.7: WRITE_MAP of slot 30 as INSERT channel 9, IDLE. -/
theorem test_write_map_one_entry :
    answers (exec (.writeMap toAddress [30#8, 1#8, 0x31#8, 9#8]) { node with mapStore := { node.mapStore with bankB := conflicting } })
      (fun t => newest t = [0x00#8] && t.mapStore.bankB[30] = ⟨.insert 9, .idle⟩ && t.mapStore.bankB[41] = ⟨.tap 3, .hold⟩) =
      true := by decide +kernel

/-- READ_MAP of two entries of the shadow bank of spec/03 3.7, laid out by spec/12 12.4. -/
theorem test_read_map :
    answers (exec (.readMap toAddress [0x01#8, 11#8, 2#8]) { node with mapStore := { node.mapStore with bankB := conflicting } })
      (fun t => newest t = [0x00#8, 0x01#8, 0x00#8, 11#8, 2#8, 0x01#8, 0xFF#8, 0x21#8, 3#8]) = true := by decide +kernel

theorem test_copy_active :
    answers (exec (.copyActive toAddress []) { node with mapStore := { node.mapStore with bankB := conflicting } })
      (fun t => newest t = [0x00#8] && t.mapStore.bankB = passBank && t.mapStore.shadow = .checked) = true := by decide +kernel

/-- The active bank of spec/03 3.8, frame f2: unsound, so that each channel gets its substitution and slot 7 the add sample. -/
def example38 : Grooming :=
  { bank := (((((passBank.set 2 ⟨.tap 4, .hold⟩).set 3 ⟨.terminate 5, .zero⟩).set 7 ⟨.insert 4, .idle⟩).set 8
      ⟨.insert 4, .idle⟩).set 9 ⟨.mute, .idle⟩).set 10 ⟨.tap 7, .idle⟩
    idle := 0x0F0F0F#24, sound := false
    received := (((Vector.replicate 48 0#24).set 2 0x444444#24).set 3 0x555555#24).set 10 0x666666#24
    add := (local32 0#24).set 4 0xCCCCCC#24, watches := watchesHardware }

theorem test_grooming_of_an_unsound_frame :
    (Grooming.payload example38)[2] = 0x444444#24 ∧ (Grooming.payload example38)[3] = 0x0F0F0F#24 ∧
      (Grooming.payload example38)[7] = 0xCCCCCC#24 ∧ (Grooming.payload example38)[9] = 0x0F0F0F#24 ∧
      (Grooming.dropFrame example38 (local32 0x111111#24))[4] = 0x111111#24 ∧
      (Grooming.dropFrame example38 (local32 0x111111#24))[5] = 0#24 ∧
      (Grooming.dropFrame example38 (local32 0x111111#24))[7] = 0x0F0F0F#24 := by decide +kernel

/-- spec/04 4.9: the broadcast of target 5296 that arrives in superframe 5200 is accepted. -/
theorem test_schedule_switch_by_broadcast :
    answers (exec (.scheduleSwitch toAll [0#8, 0x14#8, 0xB0#8]) { node with mapStore := { node.mapStore with shadow := .checked } })
      (fun t => t.mapStore.shadow = .pending 5296#16 && t.engine.replies.isEmpty && t.engine.broadcastCache = some 41#8) =
      true := by decide +kernel

theorem test_cancel_switch :
    answers (exec (.cancelSwitch toAddress []) { node with mapStore := { node.mapStore with shadow := .pending 5296#16 } })
      (fun t => newest t = [0x00#8, 0x14#8, 0xB0#8] && t.mapStore.shadow = .checked) = true := by decide +kernel

/-- spec/04 4.9 and 4.10: on time at 5296, six superframes late at 5302. -/
theorem test_pending_switch_fires :
    (MapStore.fire { node.mapStore with shadow := .pending 5296#16 } 5295#16).2 = none ∧
      (MapStore.fire { node.mapStore with shadow := .pending 5296#16 } 5296#16).2 = some (.switchDone, 5296#24) ∧
      (MapStore.fire { node.mapStore with shadow := .pending 5296#16 } 5302#16).2 = some (.switchLate, 6#24) := by
  decide +kernel

/-! ### Ring-out -/

/-- spec/02 2.11: the first substitute frame in NO_SIGNAL carries the successor pair, the position, UF 1 and EM 0. -/
theorem test_substitute_frame :
    answers (exec .substituteFrameStart { unaligned .noSignal with ringOut := { node.ringOut with resetPairDue := false } })
      (fun t => match t.ringOut.current with
        | some e => e.frame.number = ⟨14#4, 1200#16⟩ && e.frame.hop = 3#6 && e.frame.uf && !e.frame.em
        | none => false) = true := by decide +kernel

/-- The first frame after a hardware reset is the substitute frame (0, 0) with hop 63 (R11). -/
theorem test_first_frame_after_reset :
    answers (exec .substituteFrameStart State.reset)
      (fun t => match t.ringOut.current with
        | some e => e.frame.number = ⟨0#4, 0#16⟩ && e.frame.hop = 63#6
        | none => false) = true := by decide +kernel

/-- The copy of a frame that failed its check. -/
def copyDue : Copy :=
  { number := ⟨15#4, 1200#16⟩, hop := 3#6, uf := false, em := true, payload := Vector.replicate 48 7#24, sound := false
    statusBefore := [] }

/-- spec/01 1.9, the copy of frame b: 9C7h, (15, 1200), hop 3, UF 0, EM 1. -/
theorem test_forwarded_frame_b :
    answers (exec .forwardedFrameStart { node with ringOut := { node.ringOut with copies := [copyDue] } })
      (fun t => match t.ringOut.current with
        | some e => e.frame.sync = 0x9C7#12 && e.frame.number = ⟨15#4, 1200#16⟩ && e.frame.em && e.frame.payload[47] = 7#24
        | none => false) = true := by decide +kernel

/-- spec/07 7.9: at a wait count of 65 the reply begins although transit traffic waits. -/
theorem test_own_packet_begins_at_65 :
    (State.arbitrate { node with
      engine := { node.engine with replies := [reply false false] }
      service := { node.service with
        waitCount := 65, transit := [{ held := List.replicate 64 1#8, forwarded := 0, mark := .complete, request := none }] } }
      ).segment = Segment.build .start [0x00#8, 0x09#8, 0x02#8] := by decide +kernel

/-- spec/05 5.12: the drop frame written at fill 4 is a delete slip. -/
theorem test_payload_complete_delete_slip :
    answers (exec .payloadComplete
        { emitting .nothing false with port := (external (store .running [local32 1, local32 2, local32 3, local32 4] none)
          (store .running [] (some (local32 0)))).port })
      (fun t => t.port.drop.frames = [local32 2, local32 3, local32 4, local32 5] && t.counters[5] = 1#16) = true := by
  decide +kernel

/-- spec/08 8.12: the copy of the reply completes and leaves the queue. -/
theorem test_own_packet_complete :
    answers (exec .ownPacketComplete
        { emitting .reply true with engine := { node.engine with replies := [reply true false, reply false false] } })
      (fun t => t.engine.replies = [reply false false] && t.ringOut.current.isNone) = true := by decide +kernel

/-- spec/08 8.13: B's forwarded END is emitted, and B has its forwarded flag. -/
theorem test_forwarded_end_report :
    answers (exec (.forwardedEndReport 5) { emitting (.forwarded 5) true with
        engine := { node.engine with requests := [⟨small, .addressed, 0#16, true⟩, ⟨small, .broadcast 5 false, 900#16, true⟩] } })
      (fun t => t.engine.requests.map (·.cls) = [.addressed, .broadcast 5 true]) = true := by decide +kernel

theorem test_boundary_lets_a_late_reset_take_effect :
    answers (exec .emittedFrameBoundary { emitting .nothing true with
        engine := { node.engine with resetPending := some ⟨.cold, .boundary⟩ } })
      (fun t => t.engine = Engine.cleared (some 9#6) && t.aligner.align = .hunt && t.aligner.position.isNone) = true := by
  decide +kernel

/-! ### The local port -/

/-- spec/05 5.11: the third local frame start delivers d501 again. -/
theorem test_repeat_slip :
    answers (exec .localFrameStart (external (store .running [] (some (local32 501))) (store .running [] (some (local32 0)))))
      (fun t => (t.port.localFrame.bind (·.out)) = some (local32 501) && t.counters[5] = 1#16 && t.port.drop.frames.isEmpty) =
      true := by decide +kernel

/-- spec/05 5.11: a704 is written before the next ring read. -/
theorem test_delete_slip :
    answers (exec (.localFrameComplete (local32 704))
        { external (store .running [] (some (local32 0)))
            (store .running [local32 700, local32 701, local32 702, local32 703] none) with
          port := { (external (store .running [] (some (local32 0)))
            (store .running [local32 700, local32 701, local32 702, local32 703] none)).port with
              localFrame := some { edges := 0, addSoFar := [], out := none } } })
      (fun t => t.port.add.frames = [local32 701, local32 702, local32 703, local32 704] && t.counters[6] = 1#16) = true := by
  decide +kernel

/-- spec/05 5.12, the mark of e14. -/
theorem test_local_timing_lost :
    answers (exec .localTimingLost { external (store .running [local32 1] none) (store .running [] (some (local32 0))) with
        port := { (external (store .running [local32 1] none) (store .running [] (some (local32 0)))).port with watchdog := 3 } })
      (fun t => t.port.timingLost && t.port.drop.state = .stopped && t.events.queues[3].map (·.kind) = [.localTimingLost] &&
        t.counters[5] = 0#16) = true := by decide +kernel

/-- spec/05 5.12, e13 and e14: the drop frame of the frame in progress is written at fill 4 before the mark loses the timing. -/
theorem test_local_timing_lost_ends_the_frame :
    answers (exec .localTimingLost { emitting .nothing false with
        port := { (external (store .running [local32 1, local32 2, local32 3, local32 4] none)
          (store .running [] (some (local32 0)))).port with watchdog := 3 } })
      (fun t => t.port.timingLost && t.counters[5] = 1#16 && t.events.queues[5].map (·.kind) = [.dropSlip] &&
        t.events.queues[3].map (·.kind) = [.localTimingLost]) = true := by decide +kernel

/-! ### Watches -/

/-- Watch 3 of spec/06 6.10. -/
def watch3 : WatchSetup :=
  { enabled := true, slot := 10, mode := .activity, sense := .differing, value := 0#24, mask := 0xFFFF00#24, limit := 2
    debounce := 1, consequence := .substitute }

/-- spec/06 6.10: the step at (0, 802) makes the watch SILENT, and the sample of (5, 803) resumes it. -/
theorem test_watch_falls_silent_and_resumes :
    (Watch.evaluate { Watch.restarted watch3 with silence := 1 } 0x00000C#24 true).1.status = .silent ∧
      (Watch.evaluate { Watch.restarted watch3 with silence := 1 } 0x00000C#24 true).2 = [(.watchSilent, none)] ∧
      (Watch.evaluate { Watch.restarted watch3 with silence := 0, status := .silent } 0x3A0011#24 false).1.silence = 2 ∧
      (Watch.evaluate { Watch.restarted watch3 with silence := 0, status := .silent } 0x3A0011#24 false).2 =
        [(.watchResumed, none)] := by decide +kernel

/-- Watch 7 of spec/06 6.11, before frame f10: stable 05h, candidate 07h seen twice. -/
def watch7 : Watch :=
  { setup := { enabled := true, slot := 33, mode := .change, sense := .matching, value := 0#24, mask := 0x0000FF#24, limit := 100
               debounce := 3, consequence := .notify }
    status := .active, silence := 100, stable := some 5#24, candidate := some 7#24, candidateCount := 2 }

/-- spec/06 6.11: f10 accepts 07h. -/
theorem test_watch_accepts_a_change :
    (Watch.evaluate watch7 0xAAAA07#24 false).1.stable = some 7#24 ∧
      (Watch.evaluate watch7 0xAAAA07#24 false).2 = [(.watchChanged, some 7#24)] ∧
      (Watch.evaluate watch7 0xAAAA05#24 false).1.candidate = none := by decide +kernel

/-- The octets of watch 3 by spec/12 12.5. -/
theorem test_write_watch :
    answers (exec (.writeWatch toAddress
        [3#8, 0x80#8, 10#8, 0x01#8, 0#8, 0#8, 0#8, 0xFF#8, 0xFF#8, 0x00#8, 0x10#8, 0x02#8, 0x01#8]) node)
      (fun t => newest t = [0x00#8] && t.watches[3] = Watch.restarted watch3) = true := by decide +kernel

theorem test_read_watch :
    answers (exec (.readWatch toAddress [7#8]) { node with watches := node.watches.set 7 watch7 })
      (fun t => newest t = [0x00#8, 7#8, 0x80#8, 33#8, 0x10#8, 0#8, 0#8, 0#8, 0#8, 0#8, 0xFF#8, 0x30#8, 100#8, 0x00#8, 0x00#8,
        0#8, 100#8, 0x03#8, 0#8, 0#8, 5#8, 0#8, 0#8, 7#8, 2#8]) = true := by decide +kernel

/-! ### Events -/

/-- spec/09 9.12: class 5 in service with sequence 17 carries its first record, and class 4 is in service; order mode ROTATE. -/
def example912 : EventUnit :=
  { EventUnit.hardware with
    free := 61, orderMode := .rotate, notifier := .active, notifySequence := 19#8
    queues := (EventUnit.hardware.queues.set 4 [record .watchSilent]).set 5
      [record .dropSlip, { record .addSlip with occurrences := 2#8 }]
    service := (EventUnit.hardware.service.set 4 (some (inService 18#8 0 (some 768) false))).set 5
      (some (inService 17#8 0 (some 768) false)) }

/-- spec/09 9.12: the ACK of class 5 frees one record and moves the class to the end; nothing is built behind class 4. -/
theorem test_ack_rotates :
    (EventUnit.takeAck (some 5#6) 5#8 17#8 example912).order = [0, 1, 2, 3, 4, 6, 7, 5] ∧
      (EventUnit.takeAck (some 5#6) 5#8 17#8 example912).free = 62 ∧
      (EventUnit.takeAck (some 5#6) 5#8 17#8 example912).slot = none := by decide +kernel

/-- spec/09 9.13: at the fifth expiry the notifier goes QUIET and NOTIFIER_QUIET is recorded in class 7. -/
theorem test_fifth_expiry :
    answers (exec (.retryTimerExpiry 2) { node with events := { node.events with
        notifier := .active, free := 63, queues := node.events.queues.set 2 [record .switchDone]
        service := node.events.service.set 2 (some (inService 40#8 4 (some 0) false)) } })
      (fun t => t.events.notifier = .quiet && t.events.service[2] = none && t.events.queues[2] = [record .switchDone] &&
        t.events.queues[7].map (·.kind) = [.notifierQuiet]) = true := by decide +kernel

/-- spec/09 9.14: with no free record and a carried newest record, a QUALITY_LOW is lost. -/
theorem test_post_is_lost :
    (EventUnit.record { EventUnit.hardware with
      free := 0, lost := EventUnit.hardware.lost.set 6 3#8, queues := EventUnit.hardware.queues.set 6 [record .qualityLow]
      service := EventUnit.hardware.service.set 6 (some (inService 50#8 0 none false)) } 0#16 .qualityLow none none).lost[6] =
      4#8 := by decide +kernel

/-- The event setup after a reset, written back as it is: 24 octets by spec/12 12.6. -/
theorem test_write_event_setup :
    answers (exec (.writeEventSetup toAddress ([0x80#8, 0x80#8, 0x81#8, 0x81#8, 0x81#8, 0x81#8, 0x82#8, 0x82#8, 0x82#8, 0x83#8,
        0x83#8, 0x84#8, 0x84#8, 0x84#8, 0x85#8, 0x85#8, 0x86#8, 0x86#8, 0x87#8, 0x87#8, 0x87#8] ++ [0x00#8, 0x00#8, 0x00#8])) node)
      (fun t => t.events.kinds = EventUnit.hardware.kinds && t.events.masked = EventUnit.hardware.masked &&
        newest t = 0x00#8 :: EventUnit.setupOctets EventUnit.hardware) = true := by decide +kernel

/-- The two records of class 5 of spec/09 9.12 read by READ_CLASS, laid out by spec/12 12.6. -/
theorem test_read_class :
    answers (exec (.readClass toAddress [5#8]) { node with events := example912 })
      (fun t => newest t = [0x00#8, 5#8, 1#8, 2#8, 0#8, 2#8] ++
        [0x0F#8, 0xFF#8, 0x04#8, 0xB0#8, 1#8, 0#8, 0#8, 0#8] ++ [0x10#8, 0xFF#8, 0x04#8, 0xB0#8, 2#8, 0#8, 0#8, 0#8]) = true := by
  decide +kernel

/-- The carried record stands at the front and is passed over. -/
theorem test_discard_class :
    answers (exec (.discardClass toAddress [5#8, 9#8]) { node with events := example912 })
      (fun t => newest t = [0x00#8, 1#8] && t.events.queues[5] = [record .dropSlip] && t.events.free = 62) = true := by
  decide +kernel

/-! ### The management plane -/

/-- spec/08 8.12: READ_COUNTERS with clear reports CHECK_ERRORS 12 and leaves 0. -/
theorem test_read_counters_clear :
    answers (exec (.readCountersClear toAddress 0#7) { node with counters := node.counters.set 0 12#16 })
      (fun t => newest t = [0x00#8, 0#8, 12#8] ++ List.replicate 20 0#8 && t.counters[0] = 0#16) = true := by decide +kernel

theorem test_read_counters :
    answers (exec (.readCounters toAddress 0x7F#7) { node with counters := node.counters.set 10 0x1234#16 })
      (fun t => newest t = 0x00#8 :: List.replicate 20 0#8 ++ [0x12#8, 0x34#8] && t.counters[10] = 0x1234#16) = true := by
  decide +kernel

/-- spec/08 8.12: the retransmission is answered by a copy with R 1 while the counters stay as they are. -/
theorem test_retransmission_is_answered_from_the_cache :
    answers (exec (.readCountersClear toAddress 0#7)
        { node with engine := { node.engine with replyCache := some { small with sequence := 20#8 } }
                    counters := node.counters.set 0 1#16 })
      (fun t => t.engine.replies.map (·.packet.kind) = [0x82#8] && t.counters[0] = 1#16) = true := by decide +kernel

/-- spec/08 8.13: E arrives at a full queue. -/
theorem test_request_dropped :
    answers (exec (.identify toAddress []) { node with engine := { node.engine with
        requests := List.replicate 4 ⟨small, .addressed, 0#16, true⟩ } })
      (fun t => t.counters[10] = 1#16 && t.events.queues[7].map (·.kind) = [.requestDropped]) = true := by decide +kernel

/-- spec/08 8.13: B, a broadcast, is taken although the reply queue is full, and judged against C = 900. -/
theorem test_take_request :
    answers (exec .takeRequest { node with
        mapStore := { node.mapStore with shadow := .checked }
        engine := { node.engine with
          replies := List.replicate 4 (reply false false)
          requests := [⟨{ small with kind := 0x01#8, operation := 0x09#8, params := [0#8, 0x03#8, 0x85#8], sequence := 5#8 },
            .broadcast 0 true, 900#16, true⟩] } })
      (fun t => t.mapStore.shadow = .pending 901#16 && t.engine.requests.isEmpty && t.engine.broadcastCache = some 5#8 &&
        t.engine.replies.length = 4) = true := by decide +kernel

/-- IDENTIFY of the node, octet by octet (R194). -/
theorem test_identify :
    answers (exec (.identify toPosition []) node)
      (fun t => newest t = [0x00#8, 0x50#8, 0x44#8, 0x04#8, 0x16#8, 0x01#8, 48#8, 32#8, 16#8, 64#8, 8#8, 9#8, 3#8, 0x03#8]) =
      true := by decide +kernel

/-- spec/11 11.8: the taking of ASSIGN_ADDRESS makes node 1's notifier ACTIVE, and class 1 is built with two records. -/
theorem test_assign_address_ends_quiet :
    answers (exec (.assignAddress toPosition [1#8]) { node with
        engine := Engine.cleared none
        events := { node.events with
          free := 61, queues := (node.events.queues.set 1 [record .signalBack, record .alignGained]).set 6 [record .positionChanged] } })
      (fun t => t.engine.address = some 1#6 && t.events.notifier = .active && t.events.service[6] = none &&
        (match t.events.service[1] with | some v => v.carried = 2 && v.packet.sequence = 0#8 | none => false) &&
        newest t = [0x00#8, 1#8, 3#8]) = true := by decide +kernel

theorem test_read_status :
    answers (exec (.readStatus toAddress []) node)
      (fun t => newest t = [0x00#8, 0x03#8, 0#8, 0#8, 0#8, 0x04#8, 0xB0#8, 13#8, 3#8, 9#8, 0#8, 0x00#8, 0x00#8, 0#8, 0#8, 0x00#8,
        0x00#8, 0#8, 0x00#8, 0#8, 0x00#8, 0x00#8, 64#8] ++ List.replicate 8 0#8 ++ [0#8, 0#8, 0#8, 0#8]) = true := by
  decide +kernel

/-- WRITE_NODE_SETUP of all five settings (spec/12 12.7). -/
theorem test_write_node_setup :
    answers (exec (.writeNodeSetup toAddress [0x1F#8, 1#8, 2#8, 3#8, 0x03#8, 0xFF#8, 1#8, 2#8, 5#8]) node)
      (fun t => t.ringOut.idleWord = 0x010203#24 && t.aligner.threshold = 1023 && t.aligner.forcedRehunt &&
        t.port.mode = .external && t.port.drop.state = .priming && t.events.retryTime = 5#8 &&
        newest t = [0x00#8, 1#8, 2#8, 3#8, 0x03#8, 0xFF#8, 1#8, 2#8, 5#8]) = true := by decide +kernel

/-- spec/05 5.10: the first row, both stores PRIMING and empty. -/
theorem test_set_local_mode_follow :
    answers (exec (.setLocalMode toAddress 0x01#8) node)
      (fun t => t.port.mode = .follow && t.port.drop = store .priming [] none && t.port.add = store .priming [] none) = true := by
  decide +kernel

theorem test_set_quality_threshold_1024_refused :
    answers (exec (.setQualityThreshold toAddress 1024#16) node)
      (fun t => newest t = [0x02#8] && t.aligner.threshold = 0) = true := by decide +kernel

theorem test_set_forced_rehunt :
    answers (exec (.setForcedRehunt toAddress 0x01#8) node) (fun t => t.aligner.forcedRehunt && t.aligner.threshold = 0) = true := by
  decide +kernel

theorem test_set_idle_word :
    answers (exec (.setIdleWord toAddress 0xABCDEF#24) node) (fun t => t.ringOut.idleWord = 0xABCDEF#24 && t.events.retryTime = 48#8) =
      true := by decide +kernel

theorem test_set_retry_time_zero_refused :
    answers (exec (.setRetryTime toAddress 0#8) node) (fun t => newest t = [0x02#8] && t.events.retryTime = 48#8) = true := by
  decide +kernel

theorem test_reset_node_cold_is_noted :
    answers (exec (.resetNodeCold toAddress) node)
      (fun t => newest t = [0x00#8, 0x00#8] && t.engine.resetPending = some ⟨.cold, .replyCompletes⟩ &&
        t.aligner.align = .aligned) = true := by decide +kernel

theorem test_reset_node_warm_broadcast :
    answers (exec (.resetNodeWarm toAll) node)
      (fun t => t.engine.replies.isEmpty && t.engine.resetPending = some ⟨.warm, .endForwarded 0⟩) = true := by decide +kernel

theorem test_power_on_held : answers (exec (.powerOn false true) node) (fun t => !t.resetN && t.engine.address.isNone) = true := by
  decide +kernel

theorem test_hardware_reset_assert :
    answers (exec .hardwareResetAssert (emitting .nothing false)) (fun t => !t.resetN && t.ringOut.current.isNone) = true := by
  decide +kernel

/-- spec/11 11.8: nodes 2 and 3 find a carrier at release and start in HUNT. -/
theorem test_release_with_carrier :
    answers (exec (.hardwareResetRelease true) { node with resetN := false })
      (fun t => t.resetN && t.aligner.align = .hunt && t.aligner.position.isNone && t.engine.address.isNone &&
        t.events.notifier = .quiet) = true := by decide +kernel

/-- The IDLE segment read. -/
theorem read_idle : Segment.read idleSegment = some (.idle, []) := by decide +kernel

/-! ### Witnesses: what the hypotheses of the statements ask is met, clause by clause -/

theorem witness_StepRunsTheFrontCommand :
    { node with pending := [.signalLost, .payloadComplete] }.pending = .signalLost :: [.payloadComplete] ∧ node.pending = [] :=
  ⟨rfl, rfl⟩

theorem witness_ResetIsARelease : { node with resetN := false }.resetN = false := rfl

theorem witness_HardwareResetValues : { node with resetN := false }.resetN = false ∧ node.resetN = true := ⟨rfl, rfl⟩

theorem witness_HeldNodeTakesNothing :
    { node with resetN := false }.resetN = false ∧ (∀ high carrier, Instr.signalLost ≠ .powerOn high carrier) ∧
      (∀ carrier, Instr.signalLost ≠ .hardwareResetRelease carrier) ∧ Instr.signalLost ≠ .hardwareResetAssert := by
  refine ⟨rfl, ?_, ?_, ?_⟩ <;> intros <;> exact nofun

/-- A reset of each scope waits for the reset reply, whose END is in the frame in progress. -/
theorem witness_AddressedResetTakesEffect :
    ∀ scope : ResetScope,
    let s := { emitting .reply true with
      engine := { node.engine with replies := [reply true true], resetPending := some ⟨scope, .replyCompletes⟩ } }
    s.resetN = true ∧ s.ringOut.current = some (emission .reply true) ∧ (emission .reply true).ends = .reply ∧
      (emission .reply true).payloadDone = true ∧ s.engine.replies.find? (·.begun) = some (reply true true) ∧
      (reply true true).isReset = true ∧ s.engine.resetPending = some ⟨scope, .replyCompletes⟩ := by
  intro scope
  refine ⟨rfl, rfl, rfl, rfl, rfl, rfl, rfl⟩

theorem witness_BroadcastResetTakesEffect :
    ∀ scope : ResetScope,
    (let s := { emitting (.forwarded 4) true with
        engine := { node.engine with resetPending := some ⟨scope, .endForwarded 4⟩ } };
      s.resetN = true ∧ s.ringOut.current = some (emission (.forwarded 4) true) ∧ (emission (.forwarded 4) true).payloadDone = true ∧
        (emission (.forwarded 4) true).ends = .forwarded 4 ∧ s.engine.resetPending = some ⟨scope, .endForwarded 4⟩) ∧
    (emitting (.forwarded 4) true).engine.resetPending = none ∧
    (let s := { emitting .nothing true with engine := { node.engine with resetPending := some ⟨scope, .boundary⟩ } };
      s.ringOut.current = some (emission .nothing true) ∧ (emission .nothing true).ends = .nothing ∧
        s.engine.resetPending = some ⟨scope, .boundary⟩ ∧ s.service.emission = .nothing) ∧
    (let s := { emitting .nothing true with
        engine := { node.engine with resetPending := some ⟨scope, .boundary⟩ }
        service := { node.service with emission := .abortDue } };
      ∀ p, s.engine.resetPending = some p → p.moment = .boundary → s.service.emission ≠ .nothing) := by
  intro scope
  refine ⟨⟨rfl, rfl, rfl, rfl, rfl⟩, rfl, ⟨rfl, rfl, rfl, rfl⟩, ?_⟩
  intro s p _ _ h
  exact nomatch h

theorem witness_CarrierGoesAndReturns :
    node.resetN = true ∧ (unaligned .hunt).aligner.align = .hunt ∧ (unaligned .confirm).aligner.align = .confirm ∧
      node.aligner.align = .aligned ∧ (unaligned .noSignal).aligner.align = .noSignal := ⟨rfl, rfl, rfl, rfl, rfl⟩

/-- The bits of a frame whose covered bits are all 0, with its check. -/
def keptFrame : List Bool := bitsOf 0x9C7#12 ++ List.replicate 1212 false ++ bitsOf 64776#16

theorem searchKept_at_first_bit {bs : List Bool} (h1 : bs.take 12 = bitsOf syncWord) (h2 : 1240 ≤ bs.length)
    (h3 : Frame.checkPasses (Frame.ofBits (bs.take 1240)) = true) :
    searchKept bs = some (Frame.ofBits (bs.take 1240), bs.drop 1240) := by
  cases bs with
  | nil => exact absurd h2 (by decide)
  | cons b bs => simp only [searchKept, h1, h2, h3, decide_true, Bool.and_self, if_true]

theorem keptFrame_passes (behind : List Bool) :
    searchKept (keptFrame ++ behind) = some (Frame.ofBits keptFrame, behind) := by
  have hl : keptFrame.length = 1240 := by decide +kernel
  have ht : (keptFrame ++ behind).take 1240 = keptFrame := by rw [← hl, List.take_left]
  have h1 : checkOf (Frame.covered (Frame.ofBits keptFrame)) = 64776#16 := checkOf_of_steps (by decide +kernel)
  have h2 : (Frame.ofBits keptFrame).check = 64776#16 := by decide +kernel
  rw [searchKept_at_first_bit, ht, ← hl, List.drop_left]
  · have : (keptFrame ++ behind).take 12 = keptFrame.take 12 := List.take_append_of_le_length (by rw [hl]; decide)
    rw [this]; decide +kernel
  · rw [List.length_append, hl]; omega
  · rw [ht]; simp only [Frame.checkPasses, Frame.properCheck, h1, h2, decide_true]

/-- R18: the search of the kept bits accepts the frame they hold and leaves the bits behind it. -/
theorem test_bits_behind_a_candidate_stay (s : State) (behind : List Bool) (h : s.resetN = true)
    (ha : s.aligner.align = .hunt) (hk : s.aligner.keptBits = keptFrame ++ behind) :
    exec (.huntCandidate none) s = .next (State.acceptCandidate s (Frame.ofBits keptFrame) behind) := by
  simp only [exec, execHuntCandidate, takenWhen, State.huntFor, h, ha, hk, keptFrame_passes, decide_true, Bool.and_self, if_true]

/-- R17, R18: in CONFIRM a frame begins with the bits kept behind the candidate. -/
theorem test_confirm_takes_kept_bits_first :
    (Frame.bits (frameThrough (bitsOf 0x9C7#12) (Frame.ofBits []))).take 13 = bitsOf 0x9C7#12 ++ [false] := by
  decide +kernel

/-- Kept bits that hold a frame at their first bit; no kept bits, with a candidate that passes and one that fails. -/
theorem witness_HuntTakesACandidate :
    (unaligned .hunt).resetN = true ∧ (unaligned .hunt).aligner.align = .hunt ∧
      (∃ g : Frame, keptFrame = [] ++ Frame.bits g ++ [] ∧ g.sync = 0x9C7#12 ∧ g.check = checkOf (Frame.covered g)) ∧
      (∀ front' : List Bool, ([] : List Bool).length ≤ front'.length) ∧ (unaligned .hunt).aligner.keptBits = [] ∧
      (∀ (front : List Bool) (g : Frame) (behind : List Bool), [] ≠ front ++ Frame.bits g ++ behind) ∧
      (nextFrame node 2#6 false false idleSegment).sync = 0x9C7#12 ∧
      (nextFrame node 2#6 false false idleSegment).check =
        checkOf (Frame.covered (nextFrame node 2#6 false false idleSegment)) ∧
      (damaged node).check ≠ checkOf (Frame.covered (damaged node)) := by
  refine ⟨rfl, rfl, ⟨Frame.ofBits keptFrame, by decide +kernel, by decide +kernel, ?_⟩, fun _ => Nat.zero_le _, rfl, ?_, rfl,
    nextFrame_check _ _ _ _ _, damaged_check node⟩
  · exact (by decide +kernel : (Frame.ofBits keptFrame).check = 64776#16).trans (checkOf_of_steps (by decide +kernel)).symm
  · intro front g behind h
    have := congrArg List.length h
    simp [Frame.bits, bitsOf] at this
    omega

/-- A frame in CONFIRM that passes, and one that fails each test, with no bits kept; kept bits that make up a whole frame. -/
theorem witness_ConfirmTestsAFrame :
    (unaligned .confirm).resetN = true ∧ (unaligned .confirm).aligner.align = .confirm ∧
      (unaligned .confirm).aligner.keptBits = [] ∧
      Frame.bits (Frame.ofBits keptFrame) =
        (keptFrame ++ (Frame.bits (Frame.ofBits [])).drop keptFrame.length).take 1240 ∧
      (let f := nextFrame (unaligned .confirm) 2#6 false false idleSegment;
        f.sync = 0x9C7#12 ∧ f.check = checkOf (Frame.covered f) ∧ f.number = successor (unaligned .confirm).aligner.flywheel) ∧
      (unaligned .confirm).aligner.confirmCount = 0 ∧
      { unaligned .confirm with aligner := { (unaligned .confirm).aligner with confirmCount := 1 } }.aligner.confirmCount = 1 ∧
      { nextFrame (unaligned .confirm) 2#6 false false idleSegment with sync := 0x9C5#12 }.sync ≠ 0x9C7#12 ∧
      (damaged (unaligned .confirm)).check ≠ checkOf (Frame.covered (damaged (unaligned .confirm))) ∧
      (nextFrame (beforeStart 0#16) 2#6 false false idleSegment).number ≠ successor (unaligned .confirm).aligner.flywheel := by
  refine ⟨rfl, rfl, rfl, by decide +kernel, ⟨rfl, nextFrame_check _ _ _ _ _, rfl⟩, rfl, rfl, by decide, damaged_check _,
    by decide⟩

/-- A bad frame of each class; the last one is the first of a window, at the threshold 1 with forced re-hunt on. -/
theorem witness_BadFrameIsCounted :
    node.resetN = true ∧ node.aligner.align = .aligned ∧
      { nextFrame node 2#6 false false idleSegment with sync := 0x9C5#12 }.sync ≠ 0x9C7#12 ∧
      (damaged node).check ≠ checkOf (Frame.covered (damaged node)) ∧
      (nextFrame (beforeStart 0#16) 2#6 false false idleSegment).number ≠ successor node.aligner.flywheel ∧
      (let s := beforeStart 63#16;
        let t := { s with aligner := { s.aligner with threshold := 1, forcedRehunt := true, windowCount := 5 } };
        t.resetN = true ∧ t.aligner.align = .aligned ∧ (damaged t).check ≠ checkOf (Frame.covered (damaged t)) ∧
          (successor t.aligner.flywheel).index = 0#4 ∧ (successor t.aligner.flywheel).superframe.toNat % 64 = 0) ∧
      { node with aligner := { node.aligner with consecutiveBad := 2 } }.aligner.consecutiveBad + 1 = 3 := by
  refine ⟨rfl, rfl, by decide, damaged_check _, by decide, ⟨rfl, rfl, damaged_check _, ?_, ?_⟩, rfl⟩ <;> decide +kernel

/-- Good frames of both UFs with the last hop that teaches a position and the first that does not, at a node whose next frame has a
copy and at one whose next frame has none; a hop that teaches the same position and one that teaches another, at both values of the
last UF. -/
theorem witness_GoodFrameTeaches :
    (∀ uf last : Bool, ∀ hop ∈ [2#6, 61#6, 62#6],
      let s := { node with aligner := { node.aligner with lastUf := last } }
      let f := nextFrame s hop uf true idleSegment
      State.TakesAsGood s f ∧ Segment.read f.service = some (.idle, []) ∧ State.PassesQuietly s f ∧ f.uf = uf) ∧
    (61#6).toNat ≤ 61 ∧ ¬(62#6).toNat ≤ 61 ∧
    node.ringOut.copyArriving = false ∧ { node.ringOut with copyArriving := true }.copyArriving = true ∧
    node.aligner.position = some (2#6 + 1#6) ∧ node.aligner.position ≠ some (61#6 + 1#6) :=
  ⟨fun _ _ _ _ => ⟨nextFrame_taken _ _ _ _ _ rfl rfl, read_idle, node_quiet _ _ rfl rfl, rfl⟩, by decide, by decide, rfl, rfl, rfl,
    by decide⟩

/-- No bit arrived, and all but the last arrived; the frame of no bits is the frame of zeros. -/
theorem witness_MissingClockEndsTheFrame :
    node.resetN = true ∧ node.aligner.align = .aligned ∧ ([] : List Bool).length < 1240 ∧
      (List.replicate 1239 true).length < 1240 ∧
      (∃ f : Frame, Frame.bits f = [] ++ List.replicate (1240 - ([] : List Bool).length) false) := by
  refine ⟨rfl, rfl, by decide, by decide +kernel, Frame.ofBits [], by decide +kernel⟩

/-- A superframe start at a node with a switch pending. -/
theorem witness_PendingSwitchFires :
    ∀ target : Superframe,
    let s := { beforeStart 1199#16 with
      mapStore := { node.mapStore with shadow := .pending target } }
    let f := nextFrame s 2#6 false false idleSegment
    s.resetN = true ∧ s.aligner.align = .aligned ∧ f.sync = 0x9C7#12 ∧ f.check = checkOf (Frame.covered f) ∧
      f.number = successor s.aligner.flywheel ∧ f.number.index = 0#4 ∧ f.uf = false ∧
      Segment.read f.service = some (.idle, []) ∧ s.aligner.lastUf = false ∧ s.aligner.position = some (f.hop + 1#6) ∧
      (∀ i : WatchId, s.watches[i].setup.enabled = false) ∧ s.mapStore.shadow = .pending target ∧
      f.number.superframe = 1200#16 := by
  intro target
  refine ⟨rfl, rfl, rfl, nextFrame_check _ _ _ _ _, rfl, rfl, rfl, read_idle, rfl, rfl, ?_, rfl, rfl⟩
  exact (by decide +kernel : ∀ i : WatchId, node.watches[i].setup.enabled = false)

/-- Targets at the bounds of the three cases of a frame of superframe 1200. -/
theorem witness_PendingSwitchFires_bounds :
    (1 ≤ (1201#16 - 1200#16).toNat ∧ (1201#16 - 1200#16).toNat ≤ 32767) ∧ (33967#16 - 1200#16).toNat = 32767 ∧
      (33968#16 - 1200#16).toNat = 32768 ∧ 32768 ≤ (1199#16 - 1200#16).toNat := by decide +kernel

/-- A node in which bank B is active, and where a cold reset waits for the end of the frame in progress. -/
def resetDue : State :=
  { emitting .nothing true with
    mapStore := { node.mapStore with active := .b }
    engine := { node.engine with resetPending := some { scope := .cold, moment := .boundary } } }

/-- POWER_ON, and a cold reset at the end of a frame, make bank A active. -/
theorem witness_ActiveBankChangesOnlyAtASwapOrReset :
    resetDue.mapStore.active = .b ∧
      (∃ t, exec (.powerOn true true) resetDue = .next t ∧ t.mapStore.active ≠ BankName.b) ∧
      (∃ t, exec .emittedFrameBoundary resetDue = .next t ∧ t.mapStore.active ≠ BankName.b) ∧
      ∃ t, exec .substituteFrameStart resetDue = .next t ∧ t.mapStore.active ≠ BankName.b :=
  ⟨rfl, ⟨_, rfl, by decide +kernel⟩, ⟨_, rfl, by decide +kernel⟩, _, rfl, by decide +kernel⟩

theorem witness_WatchIsEvaluated :
    node.resetN = true ∧ node.aligner.align = .aligned ∧
      (let f := nextFrame node 2#6 false false idleSegment;
        (f.sync = 0x9C7#12 ∧ f.check = checkOf (Frame.covered f) ∧ f.number = successor node.aligner.flywheel) ∧
          Segment.read f.service = some (.idle, []) ∧ f.uf = false) ∧
      ¬({ nextFrame node 2#6 false false idleSegment with sync := 0x9C5#12 }.sync = 0x9C7#12) ∧
      (nextFrame node 2#6 true false idleSegment).uf = true ∧
      Segment.read (nextFrame node 2#6 true false idleSegment).service = some (.idle, []) := by
  refine ⟨rfl, rfl, ⟨⟨rfl, nextFrame_check _ _ _ _ _, rfl⟩, read_idle, rfl⟩, ?_, rfl, read_idle⟩
  decide

/-- Watch 3 alone is enabled, and the frame takes a next state. -/
theorem witness_WatchEventsAreRecorded :
    let s := { node with watches := node.watches.set 3 (Watch.restarted watch3) }
    let f := nextFrame s 2#6 false false idleSegment
    s.resetN = true ∧ s.aligner.align = .aligned ∧ f.sync = 0x9C7#12 ∧ f.check = checkOf (Frame.covered f) ∧
      f.number = successor s.aligner.flywheel ∧ f.uf = false ∧ Segment.read f.service = some (.idle, []) ∧
      s.aligner.lastUf = false ∧ s.aligner.position = some (f.hop + 1#6) ∧ s.mapStore.shadow = .editable ∧
      (∀ j : WatchId, s.watches[j].setup.enabled = true ↔ j = 3) ∧ ∃ t, exec (.frameClassified f) s = .next t := by
  refine ⟨rfl, rfl, rfl, nextFrame_check _ _ _ _ _, rfl, rfl, read_idle, rfl, rfl, rfl, ?_, _, rfl⟩
  decide +kernel

theorem witness_PayloadReachesTheCopyAlone :
    let f := nextFrame node 2#6 false false idleSegment
    node.resetN = true ∧ node.aligner.align = .aligned ∧ (∀ i : WatchId, node.watches[i].setup.enabled = false) ∧
      Segment.read f.service = some (.idle, []) ∧ f.check = checkOf (Frame.covered f) ∧
      ∃ k, k = checkOf (Frame.covered { f with payload := Vector.replicate 48 0xFFFFFF#24 }) := by
  refine ⟨rfl, rfl, ?_, read_idle, nextFrame_check _ _ _ _ _, _, rfl⟩
  decide +kernel

/-- A transit queue that holds `n` octets in one packet that is being filled, of which `sent` have gone. -/
def filled (n sent : Nat) : List TransitPacket := [{ held := List.replicate n 1#8, forwarded := sent, mark := .incomplete, request := none }]

/-- The node with a receive state and a transit queue. -/
def receiving (r : Receiving) (q : List TransitPacket) : State :=
  { node with service := { node.service with receiving := r, transit := q } }

/-- Every kind of segment, read from a good frame of either UF, at a node with any receive state and queue; at a superframe start
with a switch pending, a frame with UF 1. -/
theorem witness_SegmentsJoinTheirPacket :
    (∀ (uf : Bool) (c : Receiving) (q : List TransitPacket) (g : Segment),
      let s := receiving c q
      let f := nextFrame s 2#6 uf false g
      State.TakesAsGood s f ∧ State.PassesQuietly s f ∧ f.uf = uf ∧ f.service = g ∧ s.service.receiving = c ∧
        s.service.transit = q) ∧
    (∀ (target : Superframe) (g : Segment),
      let s := { beforeStart 1199#16 with mapStore := { node.mapStore with shadow := .pending target } }
      State.TakesAsGood s (nextFrame s 2#6 true false g) ∧ State.PassesQuietly s (nextFrame s 2#6 true false g)) ∧
    (∀ n sent, filled n sent = [] ++ [{ held := List.replicate n 1#8, forwarded := sent, mark := .incomplete, request := none }]) ∧
    (∀ k ∈ [SegmentKind.start, .middle, .ending, .single], ∀ o ∈ [0x09#8, 0x43#8, 0x7E#8, 0x03#8, 0x3F#8, 0x7F#8],
      Segment.read (Segment.build k [o, 0#8, 0#8]) = some (k, [o, 0#8, 0#8])) ∧
    Segment.read (Segment.build .abort []) = some (.abort, []) ∧ Segment.read ⟨0x01#8, 0#8, 0#8, 0#8⟩ = none := by
  refine ⟨fun _ _ _ _ => ⟨nextFrame_taken _ _ _ _ _ rfl rfl, node_quiet _ _ rfl rfl, rfl, rfl, rfl, rfl⟩,
    fun _ _ => ⟨nextFrame_taken _ _ _ _ _ rfl rfl, .inl rfl⟩, fun n sent => rfl, ?_, ?_, ?_⟩ <;>
    decide +kernel

/-- Destinations of the node's address, of its position, of the position that hop 61 teaches, of another station and of all; three octets that bring the transit queue
to 256 and to 257, and an assembly to 64 and to 65; a packet that ends well, as another kind, and not. -/
theorem witness_SegmentsJoinTheirPacket_bounds :
    node.engine.address = some ((0x09#8 : Octet).extractLsb' 0 6) ∧
    node.aligner.position = some ((0x43#8 : Octet).extractLsb' 0 6) ∧
    (∀ g, State.positionTaught node (nextFrame node 61#6 false false g) = some ((0x7E#8 : Octet).extractLsb' 0 6)) ∧
    node.engine.address ≠ some ((0x03#8 : Octet).extractLsb' 0 6) ∧ (0x3F#8 : Octet).extractLsb' 0 6 = 63#6 ∧
    transitTotal (filled 253 0) + 3 = 256 ∧ transitTotal (filled 254 0) + 3 = 257 ∧ transitTotal (filled 254 3) + 3 = 257 ∧
    (List.replicate 61 0#8).length + 3 = 64 ∧ 64 < (List.replicate 62 0#8).length + 3 ∧
    (∀ k ∈ [0x01#8, 0x02#8], (Packet.ofOctets (Packet.octets { small with kind := k })).isSome = true) ∧
    (0x02#8 : Octet) &&& 0x0F#8 ≠ 0x01#8 ∧ (0x02#8 : Octet) &&& 0x0F#8 ≠ 0x04#8 ∧
    Packet.ofOctets [0x3F#8, 0#8, 0#8, 0#8] = none := by
  have h62 : 61#6 + 1#6 = (0x7E#8 : Octet).extractLsb' 0 6 := by decide
  refine ⟨rfl, rfl, fun g => (if_pos ⟨rfl, (by decide : (61#6).toNat ≤ 61)⟩).trans (congrArg some h62), ?_⟩
  decide +kernel

/-- The request that the witness of RequestInFramesIsTheCommand sends: SCHEDULE_SWITCH for superframe 1201, from station 0,
sequence 20. -/
def sentRequest (destination : Octet) : Packet :=
  { destination := destination, source := 0#8, kind := 0x01#8, sequence := 20#8, operation := Operation.number .scheduleSwitch
    params := [0x00#8, 0x04#8, 0xB1#8] }

/-- Two next frames that differ in their segments differ in the check beside. -/
theorem nextFrame_segment (s : State) (hop : BitVec 6) (uf em : Bool) (g k : Segment) :
    nextFrame s hop uf em g = { nextFrame s hop uf em k with service := g, check := (nextFrame s hop uf em g).check } := by
  simp only [nextFrame, Frame.sealed]

/-- A request in address form, in position form (the position that the frame itself teaches) and as a broadcast, under both UFs; the
transit packet of a broadcast fills the queue to 256 octets. -/
theorem witness_RequestInFramesIsTheCommand (uf : Bool) :
    (∀ (form : DestinationForm) (destination : Octet) (r : List Octet → Receiving) (q : List TransitPacket),
      let a := (Packet.octets (sentRequest destination)).take 8
      let octets := (Packet.octets (sentRequest destination)).drop 8
      let s := receiving (r a) q
      let f := nextFrame s 61#6 uf false (Segment.build .ending octets)
      let g := nextFrame s 61#6 uf false idleSegment
      State.TakesAsGood s f ∧ State.PassesQuietly s f ∧ s.engine.requests = [] ∧ (sentRequest destination).params.length ≤ 56 ∧
        g = { f with service := ⟨0#8, 0#8, 0#8, 0#8⟩, check := g.check } ∧ g.check = checkOf (Frame.covered g) ∧
        (∃ c, requestCommand .scheduleSwitch { form := form, source := 0#8, sequence := 20#8, superframe := f.number.superframe
                                               ringTime := !f.uf } (sentRequest destination).params = some c) ∧
        a ++ octets = Packet.octets (sentRequest destination) ∧ s.service.receiving = r a ∧ s.service.transit = q ∧
        s.engine.address = some 9#6 ∧ State.positionTaught s f = if uf then some 3#6 else some 62#6) ∧
    (∀ destination ∈ [(0#2 ++ 9#6 : Octet), 1#2 ++ 3#6, 1#2 ++ 62#6, 0x3F#8],
      let octets := (Packet.octets (sentRequest destination)).drop 8
      Segment.read (Segment.build .ending octets) = some (.ending, octets) ∧
        transitTotal (filled 253 3) + octets.length = 256) ∧
    filled 253 3 = [] ++ [{ held := List.replicate 253 1#8, forwarded := 3, mark := .incomplete, request := none }] := by
  refine ⟨fun form destination r q => ⟨nextFrame_taken _ _ _ _ _ rfl rfl, node_quiet _ _ rfl rfl, rfl, (by decide : 3 ≤ 56),
    nextFrame_segment _ _ _ _ _ _, nextFrame_check _ _ _ _ _, ⟨_, rfl⟩, List.take_append_drop 8 _, rfl, rfl, rfl, ?_⟩, ?_, rfl⟩
  · cases uf <;> rfl
  · decide +kernel

/-- A RESET_NODE of two octets, which no row of the table delivers. -/
def unread : Packet := { sentRequest 9#8 with operation := 0x11#8, params := [0#8, 0#8] }

/-- No request under UF 0, three under UF 1. -/
def behind (uf : Bool) : List Request := if uf then List.replicate 3 (queued .addressed 0x01#8 []) else []

theorem behind_bounds : ∀ uf : Bool, (behind uf).length ≤ 3 ∧ (∀ x ∈ behind uf, x.packet.sequence ≠ unread.sequence) ∧
    (uf = false → behind uf = []) := by decide

/-- A packet that no row delivers, addressed and as a broadcast: at an empty request queue under UF 0, behind three requests under
UF 1. -/
theorem witness_RequestInFramesIsTheCommand_queued (uf : Bool) :
    (∀ (r : List Octet → Receiving) (q : List TransitPacket),
      let a := (Packet.octets unread).take 8
      let octets := (Packet.octets unread).drop 8
      let s := { receiving (r a) q with
        engine := { node.engine with requests := behind uf } }
      let f := nextFrame s 61#6 uf false (Segment.build .ending octets)
      let g := nextFrame s 61#6 uf false idleSegment
      State.TakesAsGood s f ∧ State.PassesQuietly s f ∧ (f.uf = false → s.engine.requests = []) ∧
        g = { f with service := ⟨0#8, 0#8, 0#8, 0#8⟩, check := g.check } ∧ g.check = checkOf (Frame.covered g) ∧
        a ++ octets = Packet.octets unread ∧ s.service.receiving = r a ∧ s.service.transit = q ∧
        s.engine.requests.length ≤ 3 ∧ (∀ x ∈ s.engine.requests, x.packet.sequence ≠ unread.sequence)) ∧
    unread.params.length ≤ 56 ∧ unread.kind &&& 0x0F#8 = 0x01#8 ∧ unread.operation ≠ 0x0B#8 ∧ unread.operation = 0x11#8 ∧
    (∀ d, ¬∃ c, requestCommand .resetNode d unread.params = some c) ∧
    (let octets := (Packet.octets unread).drop 8;
      Segment.read (Segment.build .ending octets) = some (.ending, octets) ∧ octets.length ≤ 3 ∧
        transitTotal (filled 254 3) + octets.length ≤ 256) := by
  refine ⟨fun r q => ⟨nextFrame_taken _ _ _ _ _ rfl rfl, node_quiet _ _ rfl rfl, (behind_bounds uf).2.2,
    nextFrame_segment _ _ _ _ _ _, nextFrame_check _ _ _ _ _, List.take_append_drop 8 _, rfl, rfl, (behind_bounds uf).1,
    (behind_bounds uf).2.1⟩, ?_⟩
  · refine ⟨by decide, by decide, by decide, rfl, fun d h => ?_, by decide +kernel⟩
    obtain ⟨c, h⟩ := h
    exact nomatch h

/-- An ACK of class 5, sequence 17, for the Event Unit of spec/09 9.12. -/
def ack : Packet := { destination := 9#8, source := 0#8, kind := 0x04#8, sequence := 17#8, operation := 5#8, params := [] }

/-- Under both UFs, the ACK meets its class in service, with a packet of it in the slot; and a QUIET notifier, where it matches no
class. The frame teaches nothing under UF 0, so that the Event Unit is as it was. -/
theorem witness_AckFreesTheCarriedRecords (uf : Bool) :
    let a := (Packet.octets ack).take 6
    let octets := (Packet.octets ack).drop 6
    let v := inService 17#8 0 (some 768) false
    (∀ ev ∈ [{ example912 with slot := some (5, v.packet), quietWait := [5, 4] }, EventUnit.hardware],
      let s := { receiving (.consume a) [] with events := ev, aligner := { node.aligner with lastUf := uf } }
      let f := nextFrame s 2#6 uf false (Segment.build .ending octets)
      State.TakesAsGood s f ∧ State.PassesQuietly s f ∧ (∀ ev', State.Taught s f ev' → ev' = ev) ∧
        Segment.read f.service = some (.ending, octets) ∧ s.service.receiving = .consume a ∧
        a ++ octets = Packet.octets ack ∧ ack.params.length ≤ 56 ∧ ack.kind &&& 0x0F#8 = 0x04#8) ∧
    ack.operation = BitVec.ofNat 8 (5 : ClassId).val ∧ example912.service[(5 : ClassId)] = some v ∧ v.packet.sequence = ack.sequence ∧
    ∀ (c : ClassId) (v : InService), ack.operation = BitVec.ofNat 8 c.val → EventUnit.hardware.service[c] = some v →
      v.packet.sequence ≠ ack.sequence := by
  have h1 : (Packet.octets ack).take 6 ++ (Packet.octets ack).drop 6 = Packet.octets ack := List.take_append_drop 6 _
  have hr : Segment.read (Segment.build .ending ((Packet.octets ack).drop 6)) = some (.ending, (Packet.octets ack).drop 6) := by
    decide +kernel
  refine ⟨fun ev _ => ⟨nextFrame_taken _ _ _ _ _ rfl rfl, node_quiet _ _ rfl rfl, ?_, hr, rfl, h1, ?_, ?_⟩, ?_, rfl, ?_, ?_⟩
  · intro ev' h
    cases uf
    · rcases h.2 rfl with h | h <;> exact h
    · exact h.1 rfl
  · decide +kernel
  · decide +kernel
  · decide +kernel
  · decide +kernel
  · intro c v _ h
    have hn : ∀ c : ClassId, EventUnit.hardware.service[c] = none := by decide +kernel
    rw [hn c] at h
    exact nomatch h

/-- R162, R167: an ACK that matches no class ends QUIET, and the records that QUIET released are notified afresh. -/
theorem test_unmatched_ack_ends_quiet :
    let ev := EventUnit.takeAck (some 9#6) 5#8 17#8
      { EventUnit.hardware with free := 63, queues := EventUnit.hardware.queues.set 5 [record .dropSlip] }
    ev.notifier = .active ∧ (ev.slot.map fun x => x.1) = some 5 := by decide +kernel

/-- A node without a carrier and nothing to send; the Add Store RUNNING at fill 1 in EXTERNAL, and slot 10 on INSERT; and a frame
in progress that ends. -/
theorem witness_SubstituteFrameIsBuilt :
    (let s := unaligned .noSignal;
      s.resetN = true ∧ s.aligner.align ≠ .aligned ∧ s.ringOut.current = none ∧ s.ringOut.copies = [] ∧
        (∀ p, s.engine.resetPending = some p → p.moment = .boundary → s.service.emission ≠ .nothing) ∧
        (∀ c, (MapStore.activeBank s.mapStore)[(0 : Slot)].action ≠ .insert c) ∧
        s.port.mode ≠ .follow ∧ s.port.add.state ≠ .running ∧ s.port.mode ≠ .external ∧ s.service.emission = .nothing ∧
        s.service.transit = [] ∧ s.engine.replies = [] ∧ s.events.slot = none ∧ ∀ c : ClassId, s.events.service[c] = none) ∧
    (let p := (external (store .running [local32 1] none) (store .running [local32 700] none)).port;
      p.mode = .external ∧ p.watchdog < 3 ∧ p.add.state = .running ∧ p.add.frames = local32 700 :: []) ∧
    (passBank.set 10 ⟨.insert 4, .idle⟩)[(10 : Slot)].action = .insert 4 ∧
    ∃ u, exec .emittedFrameBoundary (unaligned .hunt) = .next u ∧ u.aligner.align ≠ .aligned ∧ u.ringOut.copies = [] := by
  refine ⟨⟨rfl, by decide, rfl, rfl, nofun, nofun, by decide, by decide, by decide, rfl, rfl, rfl, rfl, by decide +kernel⟩,
    ⟨rfl, by decide, rfl, rfl⟩, rfl, _, rfl, by decide, rfl⟩

/-- Before a mark: the watchdog at 2, at 3 and untimed; the one timer that runs at 0, at 1 and at 2. After it: a local frame of
FOLLOW one edge before its last. -/
theorem witness_FrameBegins :
    (∀ n ∈ [2, 3], let p := { (external (store .stopped [] none) (store .stopped [] none)).port with watchdog := n }
      p.mode = .external ∧ p.timingLost = false ∧ p.markTaken = false ∧ p.watchdog = n) ∧ node.port.mode ≠ .external ∧
    (∀ n ∈ [0, 1, 2], let ev := { node.events with service := node.events.service.set 2 (some (inService 40#8 3 (some n) false)) }
      (2 : ClassId) ∈ ev.order ∧ ev.service[(2 : ClassId)] = some (inService 40#8 3 (some n) false) ∧
        (inService 40#8 3 (some n) false).timer = some n ∧ ∀ d : ClassId, d ≠ 2 → ev.service[d] = none) ∧
    (let p : LocalPort := { node.port with mode := .follow, localFrame := some { edges := 767, addSoFar := [], out := none } };
      p.mode = .follow ∧ ∃ lf, p.localFrame = some lf ∧ lf.edges < 768) := by
  refine ⟨fun n _ => ⟨rfl, rfl, rfl, rfl⟩, by decide, by decide +kernel, rfl, _, rfl, by decide⟩

/-- R33, R163: the mark of a frame start lowers a timer before the arbiter chooses. -/
theorem test_mark_before_the_choice :
    (State.mark { node with events := { node.events with
        service := node.events.service.set 2 (some (inService 40#8 0 (some 9) false)) } }).events.service[(2 : ClassId)] =
      some (inService 40#8 0 (some 8) false) := by decide +kernel

/-- R124, R125: an own packet found ready counts the frame of a choice that stayed open, or does not. -/
theorem test_open_choice_is_settled :
    let s := { node with
      service := { node.service with openChoice := some 7 }, engine := { node.engine with replies := [reply false false] } }
    (State.settleChoice s).service.waitCount = if Config.readyAtChoice 0 then 8 else 0 := rfl

/-- R125: a reply that becomes ready after the payload is complete does not count the frame. -/
theorem test_choice_is_settled_at_the_payload :
    let s := { emitting .nothing false with service := { node.service with openChoice := some 7 } }
    (State.finishPayload s).service.openChoice = none ∧ (State.finishPayload s).service.waitCount = node.service.waitCount :=
  ⟨rfl, rfl⟩

/-- The Add Store at fill 1, and at fill 0 with a last delivered frame; the watchdog at the last count that loses nothing. -/
theorem witness_ForwardedFrameIsBuilt :
    (∀ add ∈ [store .running [local32 700] none, store .running [] (some (local32 700))],
      let s := { external (store .running [local32 1] none) add with
        ringOut := { node.ringOut with copies := [copyDue] }
        port := { (external (store .running [local32 1] none) add).port with watchdog := 2 } }
      s.resetN = true ∧ s.ringOut.current = none ∧ s.ringOut.copies = copyDue :: [] ∧ s.engine.resetPending = none ∧
        s.port.mode = .external ∧ s.port.watchdog < 3 ∧ s.port.add.state = .running) ∧
    (store .running [local32 700] none).frames = local32 700 :: [] ∧
    (store .running [] (some (local32 700))).frames = [] ∧ (store .running [] (some (local32 700))).last = some (local32 700) := by
  decide +kernel

/-- Channel 4 is dropped from slot 2 alone in the bank of spec/03 3.8, channel 6 from none; a sound copy, an unsound one, and a
SILENT watch on slot 10, which a copy may know to have been ACTIVE; a node that emits substitute frames. -/
theorem witness_DropFrameIsFormed :
    let w := { Watch.restarted watch3 with status := .silent, silence := 0 }
    let s := { node with
      mapStore := { node.mapStore with bankA := example38.bank }
      watches := node.watches.set 3 w, ringOut := { node.ringOut with copies := [{ copyDue with sound := true }] } }
    let drops := fun (ch : Channel) (x : Slot) => (MapStore.activeBank s.mapStore)[x].action = .tap ch ∨
      (MapStore.activeBank s.mapStore)[x].action = .terminate ch
    s.resetN = true ∧ s.ringOut.current = none ∧ s.ringOut.copies = { copyDue with sound := true } :: [] ∧
      s.engine.resetPending = none ∧ (∀ x, ¬drops 6 x) ∧ drops 4 2 ∧
      (∀ y, drops 4 y → y = 2) ∧ drops 7 10 ∧ (∀ y, drops 7 y → y = 10) ∧
      (¬∃ i : WatchId, s.watches[i].setup.enabled = true ∧ s.watches[i].setup.slot = 2 ∧
        s.watches[i].setup.consequence = .substitute ∧ s.watches[i].status = .silent) ∧
      (∃ i : WatchId, s.watches[i].setup.enabled = true ∧ s.watches[i].setup.slot = 10 ∧
        s.watches[i].setup.consequence = .substitute ∧ s.watches[i].status = .silent) ∧
      copyDue.sound = false ∧ s.watches[(3 : WatchId)].status = .silent ∧
      ((3 : WatchId), WatchStatus.active) ∈ { copyDue with sound := true, statusBefore := [(3, .active)] }.statusBefore ∧
      (let u := { unaligned .hunt with mapStore := s.mapStore };
        u.resetN = true ∧ u.ringOut.current = none ∧ u.engine.resetPending = none ∧ u.aligner.align ≠ .aligned ∧
          u.ringOut.copies = []) := by
  refine ⟨rfl, rfl, rfl, rfl, ?_, ?_, ?_, ?_, ?_, ?_, ?_, rfl, rfl, ?_, rfl, rfl, rfl, ?_, rfl⟩ <;> decide +kernel

/-- The Drop Store STOPPED, PRIMING at fills 0 and 1, RUNNING at fills 3 and 4, before and after the payload is complete; a choice
that is open with a reply ready. -/
theorem witness_PayloadCompleteWritesTheDropFrame :
    (∀ st ∈ [store .stopped [] none, store .priming [] none, store .priming [local32 1] none,
        store .running [local32 1, local32 2, local32 3] none, store .running [local32 1, local32 2, local32 3, local32 4] none],
      ∀ done : Bool, let s := { emitting .nothing done with port := (external st (store .running [] (some (local32 0)))).port }
        s.resetN = true ∧ s.ringOut.current = some (emission .nothing done) ∧ s.port.startDue = false ∧
          (emission .nothing done).payloadDone = done ∧ s.port.drop = st) ∧
    (∃ r ∈ [reply false false], r.begun = false) ∧ { node.service with openChoice := some 64 }.openChoice = some 64 := by
  refine ⟨fun st _ done => ⟨rfl, rfl, rfl, rfl, rfl⟩, by decide, rfl⟩

/-- A reply's END; a notification's END with its class in service, auto-ack off and on, and with another sequence; in each case no
change to QUIET waits, or one for that class, or one for another class. -/
theorem witness_OwnPacketIsReported :
    ∀ (auto : Bool) (wait : List ClassId),
    (let s := { emitting .reply true with engine := { node.engine with replies := [reply true false] } };
      s.resetN = true ∧ s.ringOut.current = some (emission .reply true) ∧ (emission .reply true).payloadDone = true ∧
        s.engine.resetPending = none ∧ (emission .reply true).ends = .reply ∧ s.engine.replies = reply true false :: [] ∧
        (reply true false).begun = true ∧ s.engine.requests = []) ∧
    (let e := emission (.notification 5 17#8) true;
      let s := { emitting (.notification 5 17#8) true with
        events := { example912 with autoAck := Vector.replicate 8 auto, quietWait := wait } };
      s.resetN = true ∧ s.ringOut.current = some e ∧ e.payloadDone = true ∧ s.engine.resetPending = none ∧
        e.ends = .notification 5 17#8 ∧ s.events.service[(5 : ClassId)] = some (inService 17#8 0 (some 768) false) ∧
        (inService 17#8 0 (some 768) false).packet.sequence = 17#8 ∧ s.events.quietWait = wait ∧
        s.events.autoAck[(5 : ClassId)] = auto) ∧
    (∀ d ∈ ([5] : List ClassId), d = 5) ∧ (∃ d ∈ ([4] : List ClassId), d ≠ 5) ∧
    ((emission (.notification 5 16#8) true).ends = .notification 5 16#8 ∧
      ∀ v, example912.service[(5 : ClassId)] = some v → v.packet.sequence ≠ 16#8) := by
  intro auto wait
  refine ⟨⟨rfl, rfl, rfl, rfl, rfl, rfl, rfl, rfl⟩, ⟨rfl, rfl, rfl, rfl, rfl, rfl, rfl, rfl, ?_⟩, by decide, by decide, rfl, ?_⟩
  · have h : ∀ b : Bool, (Vector.replicate 8 b)[(5 : ClassId)] = b := by decide +kernel
    exact h auto
  · intro v hv
    have : v = inService 17#8 0 (some 768) false := by
      have h5 : example912.service[(5 : ClassId)] = some (inService 17#8 0 (some 768) false) := rfl
      rw [h5] at hv
      exact (Option.some.inj hv).symm
    subst this
    decide

/-- A reply's END with two requests queued, the first of which the taking answers; and with a broadcast reset queued whose END has
been forwarded, which the taking leaves waiting for the boundary. -/
theorem witness_OwnPacketIsReported_takes (r : Request) (moment : Option ResetMoment)
    (h : (r, moment) ∈ [(queued .addressed 0x01#8 [], none), (queued (.broadcast 4 true) 0x11#8 [0#8], some .boundary)]) :
    let s := { emitting .reply true with
      engine := { node.engine with replies := [reply true false], requests := [r, queued .addressed 0x03#8 []] } }
    (s.resetN = true ∧ s.ringOut.current = some (emission .reply true) ∧ s.engine.resetPending = none ∧
      s.engine.replies = reply true false :: []) ∧
    ∃ v, exec .takeRequest { s with
        ringOut := { s.ringOut with current := none }
        engine := { s.engine with replies := [] } } = .next v ∧
      v.engine.requests = [queued .addressed 0x03#8 []] ∧ v.engine.resetPending.map (·.moment) = moment := by
  simp only [List.mem_cons, List.not_mem_nil, or_false, Prod.mk.injEq] at h
  rcases h with ⟨rfl, rfl⟩ | ⟨rfl, rfl⟩ <;> exact ⟨⟨rfl, rfl, rfl, rfl⟩, _, rfl, rfl, rfl⟩

/-- A packet in emission at its first, a middle and its last segment; transit heads of each kind; the wait count at 64 and 65; a
reply that is ready behind one whose END has been placed; and a notification in the slot where no reply is ready. -/
theorem witness_ArbiterChoosesTheSegment :
    (0 + 3 < (Packet.octets small).length ∧ 3 + 3 < (Packet.octets small).length ∧ (Packet.octets small).length ≤ 6 + 3) ∧
    (∀ p ∈ [(⟨[], 3, .incomplete, none⟩ : TransitPacket), ⟨[], 3, .aborted, none⟩, ⟨[1#8, 2#8, 3#8, 4#8], 3, .complete, none⟩,
        ⟨[1#8, 2#8, 3#8], 3, .complete, some 4⟩, ⟨[1#8], 0, .complete, none⟩, ⟨[1#8, 2#8, 3#8], 0, .complete, none⟩,
        ⟨[1#8], 3, .incomplete, none⟩, ⟨[1#8, 2#8, 3#8], 0, .incomplete, none⟩, ⟨[1#8], 3, .aborted, none⟩],
      let c := { node.service with emission := .transit, transit := [p] }
      c.emission = .transit ∧ c.transit = p :: [] ∧
        ((p.held = [] ∧ p.mark = .incomplete) ∨ (p.held = [] ∧ p.mark = .aborted) ∨
          (p.held ≠ [] ∧ p.mark = .complete ∧ p.held.length ≤ 3) ∨ (p.held ≠ [] ∧ (p.mark ≠ .complete ∨ 3 < p.held.length)))) ∧
    { node.service with emission := .abortDue }.emission = .abortDue ∧ node.service.emission = .nothing ∧
    node.service.transit = [] ∧ 64 < { node.service with waitCount := 65 }.waitCount ∧
    ([reply true false, reply false false] = [reply true false] ++ reply false false :: [] ∧
      (∀ q ∈ [reply true false], q.begun = true) ∧ (reply false false).begun = false) ∧
    ((∀ r ∈ [reply true false], r.begun = true) ∧
      { node.events with slot := some (5, small) }.slot = some ((5 : ClassId), small)) ∧
    { node.service with waitCount := 64 }.waitCount ≤ 64 ∧
    ¬((∃ r ∈ node.engine.replies, r.begun = false) ∨ node.events.slot ≠ none) := by
  refine ⟨by decide +kernel, by decide +kernel, rfl, rfl, rfl, by decide, ⟨rfl, by decide, rfl⟩, ⟨by decide, rfl⟩, by decide, ?_⟩
  decide +kernel

/-- R123: a complete packet of three held octets that has not begun leaves in one SINGLE, an incomplete one in a START. -/
theorem test_short_transit_packets :
    (∀ m ∈ [TransitMark.complete, .incomplete],
      (State.arbitrate { node with service := { node.service with transit := [⟨[1#8, 2#8, 3#8], 0, m, none⟩] } }).segment =
        Segment.build (if m = .complete then .single else .start) [1#8, 2#8, 3#8]) := by decide +kernel

/-- R124, R160: where no reply is ready the notification in the slot begins, and leaves the slot. -/
theorem test_notification_begins :
    let g := State.arbitrate { node with events := { node.events with slot := some (5, small) } }
    g.segment = Segment.build .start ((Packet.octets small).take 3) ∧ g.after.events.slot = none := by decide +kernel

theorem witness_LocalFrameStarts :
    node.resetN = true ∧ node.port.mode = .disabled ∧
      (∀ (due : Bool) (st : Store), st ∈ [store .priming [local32 1] none, store .running [local32 1, local32 2] none] →
        let p : LocalPort := { node.port with mode := .follow, startDue := due, drop := st }
        p.mode = .follow ∧ p.startDue = due ∧ p.drop = st) ∧
      (∀ lost : Bool, ∀ st ∈ [store .priming [] none, store .running [local32 1] none, store .running [] (some (local32 1))],
        let p : LocalPort := { node.port with mode := .external, timingLost := lost, drop := st }
        p.mode = .external ∧ p.timingLost = lost ∧ p.drop = st) ∧
      (∃ lf : LocalFrame, some { edges := 767, addSoFar := [], out := none } = some lf ∧ lf.edges < 768) ∧
      ¬(node.port.startDue = true ∨ ∃ lf, node.port.localFrame = some lf ∧ lf.edges < 768) := by
  refine ⟨rfl, rfl, fun _ _ _ => ⟨rfl, rfl, rfl⟩, fun _ _ _ => ⟨rfl, rfl, rfl⟩, ⟨_, rfl, by decide⟩, ?_⟩
  rintro (h | ⟨lf, h, _⟩)
  · exact nomatch h
  · exact nomatch h

/-- R87, R197: after a change to FOLLOW the node holds LCLK and LFS at 0; the emitted frame that begins next drives them. -/
theorem test_follow_holds_the_clock_until_a_frame :
    answers (exec (.setLocalMode toAddress 0x01#8) node)
      (fun t => State.lclkLevel t = .heldLow && State.lfsLevel t 0 = some false) = true ∧
    answers (exec .substituteFrameStart { unaligned .noSignal with port := LocalPort.setMode node.port .follow })
      (fun t => State.lclkLevel t = .running && State.lfsLevel t 0 = some true && State.lfsLevel t 1 = some false) = true := by
  refine ⟨?_, ?_⟩ <;> decide +kernel

/-- The Add Store STOPPED, PRIMING at fills 0 and 1, RUNNING at fills 3 and 4, one edge before the last; no local frame; the
watchdog at 3. -/
theorem witness_LocalFrameCompletesOrIsLost :
    (∀ st ∈ [store .stopped [] none, store .priming [] none, store .priming [local32 1] none,
        store .running [local32 1, local32 2, local32 3] none, store .running [local32 1, local32 2, local32 3, local32 4] none],
      let s := { node with port := { node.port with
        mode := .external, add := st, localFrame := some { edges := 767, addSoFar := [], out := none } } }
      s.resetN = true ∧ s.port.mode ≠ .disabled ∧ s.port.localFrame = some { edges := 767, addSoFar := [], out := none } ∧
        s.port.add = st) ∧
    (∀ lf, node.port.localFrame = some lf → 768 ≤ lf.edges) ∧
    (let s := { node with port := { node.port with mode := .external, watchdog := 3 } };
      s.resetN = true ∧ s.port.mode = .external ∧ s.port.timingLost = false ∧ s.port.watchdog = 3 ∧ s.ringOut.current = none ∧
        s.engine.resetPending = none) ∧
    ∀ done : Bool, ∃ u, exec .emittedFrameBoundary { emitting .nothing done with
        port := { (external (store .running [local32 1, local32 2, local32 3, local32 4] none)
          (store .running [] (some (local32 0)))).port with watchdog := 3 } } = .next u ∧
      u.port.mode = .external ∧ u.port.timingLost = false ∧ u.port.watchdog = 3 := by
  refine ⟨fun st _ => ⟨rfl, nofun, rfl, rfl⟩, fun lf h => (nomatch h), ⟨rfl, rfl, rfl, rfl, rfl, rfl⟩, fun done => ⟨_, rfl, ?_⟩⟩
  cases done <;> exact ⟨rfl, rfl, rfl⟩

/-- Retry counts 3 and 4, the latter with and without a notification in emission. -/
theorem witness_RetryTimerExpires :
    (∀ n ∈ [3, 4], let s := { node with events := { node.events with
        service := node.events.service.set 2 (some (inService 40#8 n (some 0) false)) } }
      s.resetN = true ∧ s.events.service[(2 : ClassId)] = some (inService 40#8 n (some 0) false) ∧
        (inService 40#8 n (some 0) false).timer = some 0 ∧ (inService 40#8 n (some 0) false).retries = n) ∧
    State.notificationEmitting node = false ∧ State.notificationEmitting (emitting (.notification 5 17#8) false) = true := by
  refine ⟨?_, by decide +kernel, by decide +kernel⟩
  decide +kernel

/-- A disabled kind; a record that may be joined; one that is carried; and no free record. -/
theorem witness_PostIsHandledByFourCases :
    { EventUnit.hardware with kinds := EventUnit.hardware.kinds.set 14 ⟨false, 5⟩ }.kinds[EventKind.dropSlip.index].enabled = false ∧
      EventUnit.hardware.kinds[EventKind.dropSlip.index].enabled = true ∧
      (let ev := { example912 with service := EventUnit.hardware.service };
        ev.kinds[EventKind.addSlip.index].cls = 5 ∧
          ev.queues[(5 : ClassId)].getLast? = some { record .addSlip with occurrences := 2#8 } ∧
          (∀ v, ev.service[(5 : ClassId)] = some v → v.carried < ev.queues[(5 : ClassId)].length)) ∧
      0 < EventUnit.hardware.free ∧ EventUnit.hardware.queues[(5 : ClassId)].getLast? = none ∧
      { EventUnit.hardware with free := 0 }.free = 0 := by
  refine ⟨by decide +kernel, by decide +kernel, ⟨by decide +kernel, by decide +kernel, fun v h => nomatch h⟩, by decide, rfl, rfl⟩

/-- A slot that is filled; a resend due behind a class without one; a class eligible behind one without a record; QUIET; and
records that all stand behind the class in service. -/
theorem witness_SlotIsFilledInOrder :
    { example912 with slot := some (5, small) }.slot = some (5, small) ∧
      (let ev := { example912 with service := EventUnit.hardware.service.set 5 (some (inService 17#8 1 none true)) };
        ev.slot = none ∧ ev.order = [0, 1, 2, 3, 4] ++ 5 :: [6, 7] ∧
          (∀ d ∈ [0, 1, 2, 3, 4], ¬∃ v, ev.service[(d : ClassId)] = some v ∧ v.resendDue = true) ∧
          ev.service[(5 : ClassId)] = some (inService 17#8 1 none true) ∧ (inService 17#8 1 none true).resendDue = true) ∧
      (let ev := { example912 with service := EventUnit.hardware.service };
        ev.slot = none ∧ ev.notifier = .active ∧ ev.order = [0, 1, 2, 3] ++ 4 :: [5, 6, 7] ∧
          (∀ d ∈ ev.order, ¬∃ v, ev.service[(d : ClassId)] = some v ∧ v.resendDue = true) ∧
          (∀ d ∈ [0, 1, 2, 3], ev.service[(d : ClassId)] = none ∧ (ev.masked[d] = true ∨ ev.queues[d] = [])) ∧
          ev.service[(4 : ClassId)] = none ∧ ev.masked[(4 : ClassId)] = false ∧ ev.queues[(4 : ClassId)] ≠ []) ∧
      EventUnit.hardware.notifier = .quiet ∧
      (let ev := { example912 with service := EventUnit.hardware.service.set 0 (some (inService 17#8 1 none false)) };
        (∀ d ∈ ev.order, ∀ v, ev.service[(d : ClassId)] = some v → v.resendDue = false) ∧
          ∀ (before : List ClassId) (c : ClassId) (after : List ClassId), ev.order = before ++ c :: after →
            ∃ d ∈ before ++ [c], ev.service[d] ≠ none) := by
  refine ⟨rfl, ⟨rfl, rfl, ?_, rfl, rfl⟩, ⟨rfl, rfl, rfl, ?_, ?_, rfl, rfl, ?_⟩, rfl, by decide +kernel, ?_⟩
  · intro d hd; fin_cases hd <;> exact fun ⟨v, h, _⟩ => nomatch h
  · intro d hd; fin_cases hd <;> exact fun ⟨v, h, _⟩ => nomatch h
  · decide +kernel
  · decide +kernel
  · intro before c after h
    refine ⟨0, ?_, by decide +kernel⟩
    cases before with
    | nil => have := congrArg List.head? h; simp [example912, EventUnit.hardware, fixedOrder] at this; simp [this]
    | cons b bs => have := congrArg List.head? h; simp [example912, EventUnit.hardware, fixedOrder] at this; simp [this]

/-- The node takes a request in address form and in position form at once, and a broadcast. -/
theorem witness_ready : State.AddressedReady node toAddress ∧ State.AddressedReady node toPosition ∧ State.BroadcastReady node toAll := by
  decide +kernel

theorem witness_IdentifyAnswers :
    State.AddressedReady node toAddress ∧ State.BroadcastReady node toAll ∧ [0#8] ≠ ([] : List Octet) ∧
      (List.replicate 56 0#8).length ≤ 56 := by decide +kernel

theorem witness_AssignAddressIsExecuted :
    State.AddressedReady node toPosition ∧ (1 ≤ (1#8 : Octet).toNat ∧ (62#8 : Octet).toNat ≤ 62) ∧ (0#8 : Octet).toNat = 0 ∧
      63 ≤ (63#8 : Octet).toNat ∧ ([] : List Octet).length ≠ 1 ∧ [0#8, 0#8].length ≠ 1 := by decide +kernel

theorem witness_ReadStatusAnswers : State.AddressedReady node toAddress ∧ [0#8] ≠ ([] : List Octet) :=
  ⟨witness_ready.1, by decide⟩

theorem witness_ReadCountersAnswers : State.AddressedReady node toPosition := witness_ready.2.1

theorem witness_NodeSetupIsWritten :
    State.AddressedReady node toAddress ∧ (1023#16).toNat ≤ 1023 ∧ 1024 ≤ (1024#16).toNat ∧ 2 ≤ (2#8 : Octet).toNat ∧
      3 ≤ (3#8 : Octet).toNat ∧ 1 ≤ (1#8 : Octet).toNat ∧ (0xE0#8 : Octet) &&& 0x1F#8 = 0#8 ∧
      ((0x03#8 ++ 0xFF#8 : BitVec 16)).toNat ≤ 1023 ∧ (List.replicate 8 0#8).length ≠ 9 := by decide +kernel

/-- 24 entries at the end of the bank, one too many, no entry, an entry of each form that is refused, and a PENDING shadow. -/
theorem witness_MapIsWrittenAndRead :
    (∀ st ∈ [ShadowState.editable, .checked, .pending 5296#16], ∀ bank ∈ [BankName.a, .b],
      State.AddressedReady { node with mapStore := { node.mapStore with shadow := st, active := bank } } toAddress) ∧
      (1 ≤ (24#8 : Octet).toNat ∧ (24#8 : Octet).toNat ≤ 24 ∧ (24#8 : Octet).toNat + (24#8 : Octet).toNat ≤ 48) ∧
      (List.replicate 24 (⟨.pass, .idle⟩ : Entry)).length = (24#8 : Octet).toNat ∧
      (¬((25#8 : Octet).toNat + (24#8 : Octet).toNat ≤ 48) ∧ ¬(1 ≤ (0#8 : Octet).toNat) ∧ ¬((25#8 : Octet).toNat ≤ 24) ∧
        (List.replicate 50 0#8).length = 2 * (25#8 : Octet).toNat) ∧
      ((List.replicate 23 (⟨.tap 3, .hold⟩ : Entry)).length + 1 + ([] : List Entry).length = (24#8 : Octet).toNat ∧
        5 ≤ ((0x50#8 : Octet) >>> 4).toNat ∧ 3 ≤ ((0x13#8 : Octet) &&& 0x0F#8).toNat ∧
        (0x20 ≤ (0x20#8 : Octet).toNat ∧ (0x20#8 : Octet).toNat ≤ 0xFE) ∧ 1 ≤ ((0x10#8 : Octet) >>> 4).toNat ∧
        ((0x30#8 : Octet) >>> 4).toNat ≤ 3 ∧ (0x1F#8 : Octet).toNat < 0x20 ∧ ((0x40#8 : Octet) >>> 4).toNat = 4) ∧
      (∀ t, node.mapStore.shadow ≠ .pending t) ∧ (∃ t, (ShadowState.pending 5296#16) = .pending t) ∧
      (2 ≤ (2#8 : Octet).toNat ∧ [1#8, 2#8].length ≠ 3 ∧ [1#8].length < 2 ∧ [1#8].length ≠ 2 * (0#8 : Octet).toNat) := by
  refine ⟨by decide +kernel, by decide, by decide, by decide, by decide, fun t h => (nomatch h), ⟨_, rfl⟩, by decide⟩

/-- spec/12 12.4: a WRITE_MAP with an unknown action, an unknown substitution, channel 20h, a TAP without a channel or a MUTE with
one is refused with BAD_PARAMETER. -/
theorem test_malformed_entries :
    ∀ o ∈ [[0x51#8, 3#8], [0x13#8, 3#8], [0x11#8, 0x20#8], [0x11#8, 0xFF#8], [0x41#8, 3#8]],
      answers (exec (.writeMap toAddress (0#8 :: 1#8 :: o)) node)
        (fun t => (t.engine.replies.map fun r => r.packet.params) = [[0x02#8]]) = true := by decide +kernel

theorem witness_CopyActiveIsExecuted :
    (∀ st ∈ [ShadowState.editable, .checked, .pending 5296#16], ∀ bank ∈ [BankName.a, .b],
      State.AddressedReady { node with mapStore := { node.mapStore with shadow := st, active := bank } } toAddress) ∧
      [0#8] ≠ ([] : List Octet) := by decide +kernel

/-- The shadow bank of spec/03 3.7: channel 3 is the lowest in conflict, at slots 12 and 20. A bank of PASS entries has none. -/
theorem witness_CheckMapIsExecuted :
    let s := { node with mapStore := { node.mapStore with bankB := conflicting } }
    let drops := fun (c : Channel) (x : Slot) => s.mapStore.bankB[x].action = .tap c ∨ s.mapStore.bankB[x].action = .terminate c
    State.AddressedReady s toAddress ∧ s.mapStore.active = .a ∧ s.mapStore.shadow = .editable ∧
      (∀ b : Channel, b < 3 → ¬∃ x y : Slot, x < y ∧ drops b x ∧ drops b y) ∧ (12 : Slot) < 20 ∧ drops 3 12 ∧ drops 3 20 ∧
      (∀ z, drops 3 z → z = 12 ∨ 20 ≤ z) ∧
      (∀ x : Slot, node.mapStore.bankB[x].action = .pass) ∧
      (MapStore.Sound { node.mapStore with shadow := .checked } ∧
        State.AddressedReady { node with mapStore := { node.mapStore with shadow := .checked } } toAddress) ∧
      State.AddressedReady { node with mapStore := { node.mapStore with shadow := .pending 0#16 } } toAddress := by
  refine ⟨?_, rfl, rfl, ?_, ?_, ?_, ?_, ?_, ?_, ?_, ?_⟩ <;> decide +kernel

/-- Targets 1 and 32767 ahead of C = 5200, one that equals C and one half the range away. -/
theorem witness_SwitchIsScheduledAndCancelled :
    (∀ st ∈ [ShadowState.editable, .checked, .pending 5296#16], ∀ rt : Bool,
      State.AddressedReady { node with mapStore := { node.mapStore with shadow := st } } { toAddress with ringTime := rt }) ∧
      (5201#16 - 5200#16).toNat = 1 ∧ (37967#16 - 5200#16).toNat = 32767 ∧ ¬(1 ≤ (5200#16 - 5200#16).toNat) ∧
      ¬((37968#16 - 5200#16).toNat ≤ 32767) ∧ (1#8 : Octet).toNat ≤ 1 ∧ 2 ≤ (2#8 : Octet).toNat := by decide +kernel

/-- R105, 12.5: a SILENT watch with a stable value and a candidate, read as it is. -/
theorem test_read_watch_in_progress :
    let w : Watch := { setup := watch3, status := .silent, silence := 0, stable := some 0x010203#24, candidate := some 0x040506#24
                       candidateCount := 2 }
    answers (exec (.readWatch toAddress [3#8]) { node with watches := node.watches.set 3 w })
      (fun t => (t.engine.replyCache.map fun p => p.params.drop 14) =
        some [0x01#8, 0#8, 0#8, 0x03#8, 1#8, 2#8, 3#8, 4#8, 5#8, 6#8, 2#8]) = true := by decide +kernel

/-- Indices 15 and 16, and each field at the first value outside its range. -/
theorem witness_WatchIsWrittenAndRead :
    State.AddressedReady node toAddress ∧ (15#8 : Octet).toNat < 16 ∧ 16 ≤ (16#8 : Octet).toNat ∧
      (1 ≤ watch3.limit ∧ watch3.limit ≤ 4095 ∧ 1 ≤ watch3.debounce ∧ watch3.debounce ≤ 15) ∧ 48 ≤ (48#8 : Octet).toNat ∧
      2 ≤ ((0x20#8 : Octet) >>> 4).toNat ∧ 2 ≤ ((0x02#8 : Octet) &&& 0x0F#8).toNat ∧ 2 ≤ (2#8 : Octet).toNat ∧
      ((0x0F#8 : Octet) >>> 4) = 0#8 ∧ (0x10#8 ++ 0x00#8 : BitVec 16) &&& 0x0FFF#16 = 0#16 ∧ [1#8, 2#8].length ≠ 1 := by
  decide +kernel

theorem witness_ClassRequestsAreExecuted :
    State.AddressedReady node toAddress ∧ (1#8 : Octet).toNat ≤ 1 ∧
      ((List.replicate 24 2#8).length = 24 ∧ 2 ≤ ((List.replicate 24 2#8).getD 22 0#8).toNat) ∧ 8 ≤ (8#8 : Octet).toNat ∧
      (List.replicate 23 0#8).length ≠ 24 := by decide +kernel

theorem witness_ResetNodeIsNoted :
    State.AddressedReady node toAddress ∧ State.BroadcastReady node toAll ∧
      (let s := { node with engine := { node.engine with
          resetPending := some ⟨.cold, .replyCompletes⟩, requests := List.replicate 3 (queued .addressed 0x01#8 []) } };
        s.resetN = true ∧ s.engine.resetPending ≠ none ∧ s.engine.requests.length ≤ 3 ∧
          (∀ d ∈ [toAddress, toPosition, toAll], ∀ q ∈ s.engine.requests, q.packet.sequence ≠ d.sequence) ∧
          State.consumesAt s toAddress 0x09#8 ∧ State.consumesAt s toPosition 0x43#8 ∧ toAll.form = .broadcast ∧
          Operation.inSubset .cancelSwitch) ∧
      deliversRequest (.identify toAddress []) toAddress .identify [] ∧
      deliversRequest (.setRetryTime toPosition 3#8) toPosition .writeNodeSetup
        [0x10#8, 0#8, 0#8, 0#8, 0#8, 0#8, 0#8, 0#8, 3#8] ∧
      deliversRequest (.cancelSwitch toAll []) toAll .cancelSwitch [] := by
  refine ⟨witness_ready.1, witness_ready.2.2, ⟨rfl, by decide, by decide, by decide, .inl ⟨rfl, _, rfl, rfl⟩,
    .inr ⟨rfl, _, rfl, rfl⟩, rfl, .inr (.inl rfl)⟩, ⟨by decide, .inl rfl⟩,
    ⟨by decide, .inr ⟨rfl, .inr (.inr (.inr (.inr ⟨_, rfl, rfl⟩)))⟩⟩, by decide, .inl rfl⟩

theorem witness_BroadcastIsExecutedWithoutReply :
    (∀ st ∈ [ShadowState.editable, .checked, .pending 5296#16], ∀ rt : Bool,
      State.BroadcastReady { node with mapStore := { node.mapStore with shadow := st } } { toAll with ringTime := rt }) ∧
      isAhead (0x14#8 ++ 0xB0#8) toAll.superframe = true ∧ isAhead (0x14#8 ++ 0x50#8) toAll.superframe = false ∧
      (∃ c, requestCommand .identify toAll [] = some c) ∧ ShadowState.editable ≠ .checked ∧ 2 ≤ (2#8 : Octet).toNat ∧
      ([0#8, 0#8] : List Octet).length ≠ 3 ∧ ([0#8] : List Octet) ≠ [] ∧
      (Operation.identify ≠ .scheduleSwitch ∧ Operation.identify ≠ .cancelSwitch ∧ Operation.identify ≠ .resetNode) := by
  refine ⟨by decide +kernel, by decide +kernel, by decide +kernel, ⟨_, rfl⟩, by decide, by decide, by decide, by decide,
    by decide⟩

/-- No address and no position; the sequence queued in the class and in the other one; four and three requests with other
sequences; a queue whose head may not be taken, as four replies wait. -/
theorem witness_ArrivalIsTested :
    deliversRequest (.identify toAddress []) toAddress .identify [] ∧
      deliversRequest (.setIdleWord toPosition 7#24) toPosition .writeNodeSetup
        [0x01#8, 0#8, 0#8, 7#8, 0#8, 0#8, 0#8, 0#8, 0#8] ∧
      deliversRequest (.resetNodeWarm toAll) toAll .resetNode [0x01#8] ∧ deliversRequest (.identify toAll []) toAll .identify [] ∧
      (Engine.cleared none).address = none ∧ (Aligner.hardware true).position = none ∧
      State.consumesAt node toAddress 0x09#8 ∧ State.consumesAt node toPosition 0x43#8 ∧ toAll.form = .broadcast ∧
      Operation.inSubset .resetNode ∧ ¬Operation.inSubset .identify ∧
      (let a : Request := { queued .addressed 0x01#8 [] with packet := { small with sequence := 20#8 } };
        let b : Request := { queued (.broadcast 4 false) 0x11#8 [1#8] with packet := { small with sequence := 41#8 } };
        (a.cls = .addressed ∧ a.packet.sequence = toAddress.sequence) ∧ Request.broadcastOf b toAll.sequence ∧
          ¬Request.broadcastOf { a with packet := b.packet } toAll.sequence ∧
          { b with packet := a.packet }.cls ≠ .addressed) ∧
      (∀ n ∈ [1, 3, 4],
        let s := { node with engine := { node.engine with
          requests := List.replicate n (queued .addressed 0x01#8 []), replies := List.replicate 4 (reply false false) } }
        s.engine.requests.length = n ∧ (∀ q ∈ s.engine.requests, q.packet.sequence ≠ toAddress.sequence) ∧
          (∀ q ∈ s.engine.requests, ¬Request.broadcastOf q toAll.sequence) ∧
          (∀ q ∈ s.engine.requests, q.cls = .addressed) ∧ s.engine.replies.length = 4) := by
  refine ⟨⟨by decide, .inl rfl⟩, ⟨by decide, .inr ⟨rfl, .inl ⟨_, rfl, rfl⟩⟩⟩, ⟨by decide, .inl rfl⟩, ⟨by decide, .inl rfl⟩,
    rfl, rfl, .inl ⟨rfl, _, rfl, rfl⟩, .inr ⟨rfl, _, rfl, rfl⟩, rfl, .inr (.inr rfl), by decide,
    ⟨⟨rfl, rfl⟩, ⟨⟨_, _, rfl⟩, rfl⟩, fun h => ?_, by decide⟩, ?_⟩
  · obtain ⟨⟨n, f, h⟩, -⟩ := h
    exact nomatch h
  · intro n hn
    refine ⟨by simp, ?_, ?_, ?_, by simp⟩ <;> intro q hq <;> obtain rfl := List.eq_of_mem_replicate hq
    · decide
    · rintro ⟨⟨n, f, h⟩, -⟩
      exact nomatch h
    · rfl

/-- A queued IDENTIFY, a queued READ_STATUS with one that waits behind it, and queued broadcasts, none of them in a cache. -/
theorem witness_RequestIsTaken_executed :
    (∀ op ∈ [Operation.identify, .readStatus],
      let r : Request := ⟨{ small with operation := Operation.number op }, .addressed, 5#16, true⟩
      let s := { node with engine := { node.engine with requests := [r, r] } }
      s.resetN = true ∧ s.engine.requests = r :: [r] ∧ s.engine.resetPending = none ∧ r.cls = .addressed ∧
        s.engine.replies.length < 4 ∧ Engine.cacheMisses s.engine r.packet.sequence = true ∧ r.packet.params.length ≤ 56 ∧
        (State.consumedAs s .address).isSome = true ∧ (requestCommand op toAddress r.packet.params).isSome = true) ∧
    (∀ op ∈ [Operation.scheduleSwitch, .cancelSwitch], (requestCommand op toAll []).isSome = true) ∧
    node.engine.broadcastCache ≠ some 7#8 ∧ Operation.number .resetNode = 0x11#8 := by decide +kernel

/-- R140, R196: bit 7 of a request's source octet does not return in the reply's destination. -/
theorem test_reply_destination_has_no_reserved_bit :
    answers (exec (.identify { toAddress with source := 0x85#8 } []) node)
      (fun t => t.engine.replies.map (·.packet.destination) = [0x05#8]) = true := by decide +kernel

/-- A reset that is pending; READ_COUNTERS without an octet, RESET_NODE with none, with two and with scope 2, each addressed and the
last three as a broadcast. -/
theorem witness_RequestIsTaken_refused :
    (let r := queued .addressed 0x01#8 [];
      let s := { node with engine := { node.engine with requests := [r], resetPending := some ⟨.warm, .boundary⟩ } };
      s.resetN = true ∧ s.engine.requests = r :: [] ∧ s.engine.resetPending ≠ none) ∧
    (∀ cls ∈ [RequestClass.addressed, .broadcast 4 true], ∀ r ∈ [queued cls 0x10#8 [], queued cls 0x11#8 [], queued cls 0x11#8 [0#8, 0#8],
        queued cls 0x11#8 [2#8]],
      let s := { node with engine := { node.engine with requests := [r] } }
      s.engine.resetPending = none ∧ s.engine.replies.length < 4 ∧ Engine.cacheMisses s.engine r.packet.sequence = true ∧
        s.engine.broadcastCache ≠ some r.packet.sequence ∧
        (r.packet.params.length ≠ 1 ∨ ∀ code : Octet, r.packet.params = [code] → 2 ≤ code.toNat)) := by
  refine ⟨⟨rfl, rfl, by decide⟩, ?_⟩
  simp only [List.forall_mem_cons, List.not_mem_nil, false_implies, implies_true, and_true]
  refine ⟨⟨?_, ?_, ?_, ?_⟩, ?_, ?_, ?_, ?_⟩ <;>
    refine ⟨rfl, by decide, by decide, by decide, ?_⟩ <;> first
      | exact .inl (by decide)
      | exact .inr fun code h => by obtain rfl := (List.cons.inj h).1; decide

/-- A cached sequence, an operation number past the last, a broadcast in the cache, and a full reply queue. -/
theorem witness_RequestIsTaken :
    (let r : Request := ⟨small, .addressed, 0#16, true⟩;
      let s := { node with engine := { node.engine with requests := [r], replyCache := some small, replies := List.replicate 3 (reply false false) } };
      s.resetN = true ∧ s.engine.requests = r :: [] ∧ s.engine.resetPending = none ∧ r.cls = .addressed ∧
        s.engine.replies.length < 4 ∧ s.engine.replyCache = some small ∧ small.sequence = r.packet.sequence) ∧
    (Engine.cacheMisses node.engine 7#8 = true ∧ 0x12 ≤ (0x12#8 : Octet).toNat) ∧
    (let r : Request := ⟨small, .broadcast 4 true, 0#16, true⟩;
      r.cls = .broadcast 4 true ∧ { node.engine with broadcastCache := some 7#8 }.broadcastCache = some r.packet.sequence) ∧
    (List.replicate 4 (reply false false)).length = 4 := by decide +kernel

/-- The state after reset, with a command that waits. -/
def waiting : State := { State.reset with pending := [.substituteFrameStart] }

/-- The state after reset, with a command that waits, meets every invariant and takes a step. -/
theorem witness_invariants :
    let s := waiting
    (MapStore.Sound s.mapStore ∧ LocalPort.Sound s.port ∧ Store.Sound s.port.drop ∧ Store.Sound s.port.add ∧
      (∀ i : WatchId, Watch.Sound s.watches[i]) ∧ ServiceChannel.Sound s.service ∧ EventUnit.Sound s.events ∧
      State.NotifierSound s ∧ Engine.Sound s.engine ∧ State.AlignerSound s ∧ State.RingOutSound s) ∧
      ∃ t, step s = .next t := by
  refine ⟨⟨?_, ?_, ?_, ?_, ?_, ?_, ?_, ?_, ?_, ?_, ?_⟩, _, rfl⟩ <;> decide +kernel

/-- An open choice within a payload, which PAYLOAD_COMPLETE closes. -/
theorem witness_ServiceChannelStaysSound :
    let s := { emitting .nothing false with service := { node.service with openChoice := some 7 }, pending := [.payloadComplete] }
    State.ChoiceSound s ∧ s.resetN = true ∧ s.service.openChoice ≠ none ∧ State.ChoiceSound waiting ∧ ∃ t, step s = .next t :=
  ⟨fun _ _ => rfl, rfl, by decide, fun _ h => absurd rfl h, _, rfl⟩

/-- In FOLLOW between two steps that stay in it, both stores RUNNING at fill 2. -/
theorem witness_FollowNeverSlips :
    let s := { node with
      pending := [.payloadComplete]
      port := { node.port with
        mode := .follow, drop := store .running [local32 1, local32 2] none, add := store .running [local32 1, local32 2] none } }
    State.FollowSteady s ∧ ∃ t, step s = .next t ∧ s.resetN = true ∧ s.port.mode = .follow ∧ t.port.mode = .follow := by
  refine ⟨?_, _, rfl, rfl, rfl, rfl⟩
  decide +kernel

theorem witness_PacketsFit : State.PacketsFit waiting := by
  refine ⟨fun r h => (nomatch h), rfl, ?_, rfl, rfl⟩
  decide +kernel

/-- A hardware reset loses the address. -/
theorem witness_NotifierNeedsAnAddress :
    ∃ t, exec (.powerOn true true) node = .next t ∧ node.engine.address ≠ none ∧ t.engine.address = none :=
  ⟨_, rfl, by decide, rfl⟩

theorem witness_PacketOctetsReadBack :
    (List.replicate 56 0#8).length ≤ 56 ∧
      Packet.octets ack = (Packet.octets ack).take 6 ++ [(Packet.octets ack).getD 6 0#8, (Packet.octets ack).getD 7 0#8] ∧
      (SegmentKind.single ≠ .idle ∧ SegmentKind.single ≠ .abort ∧ 1 ≤ [0#8].length ∧ [0#8, 0#8, 0#8].length ≤ 3) := by
  decide +kernel

end Sys2Proof.Tests
end

/-! SUPPORT. The carrier goes and returns (R14, R15): what counting one event, aborting on receive and leaving ALIGNED write,
and the settlement of O8. -/

namespace Sys2Proof.Machine

/-! ### Counting, counter by counter (R174) -/

theorem CounterName.index_injective : Function.Injective CounterName.index := by
  intro c d
  cases c <;> cases d <;> decide

theorem State.count_counter (s : State) (c k : CounterName) :
    (State.count s c).counters[k.index] = if k = c then raise16 s.counters[k.index] else s.counters[k.index] := by
  rw [State.count_counters, Vector.set_fin]
  by_cases h : k = c
  · rw [h, if_pos rfl, if_pos rfl]
  · rw [if_neg h, if_neg fun hi => h (CounterName.index_injective hi).symm]

/-! ### Aborting the packet in progress on receive (R112, R113) -/

theorem ServiceChannel.inPacket_iff (c : ServiceChannel) : ServiceChannel.inPacket c = true ↔ c.receiving ≠ .nothing := by
  unfold ServiceChannel.inPacket
  cases c.receiving <;> simp

theorem State.abortReceive_of_idle {s : State} (h : s.service.receiving = .nothing) : State.abortReceive s = s := by
  simp only [State.abortReceive, h]

theorem State.abortReceive_receiving (s : State) : (State.abortReceive s).service.receiving = .nothing := by
  unfold State.abortReceive
  split
  · assumption
  all_goals rfl

/-- What the abort does to the service channel depends on the service channel alone. -/
theorem State.abortReceive_service_congr {s u : State} (h : s.service = u.service) :
    (State.abortReceive s).service = (State.abortReceive u).service := by
  unfold State.abortReceive
  rw [h]
  split <;> simp only [State.withReceive, h]

theorem State.abortReceive_counters (s : State) : (State.abortReceive s).counters = s.counters := by
  rw [State.abortReceive_frame]

theorem State.abortCounted_service (s : State) : (State.abortCounted s).service = (State.abortReceive s).service := by
  unfold State.abortCounted
  split
  · rfl
  next h =>
    have idle : s.service.receiving = .nothing := by
      rwa [ServiceChannel.inPacket_iff, not_not] at h
    rw [State.abortReceive_of_idle idle]

theorem State.abortCounted_counter (s : State) (k : CounterName) :
    (State.abortCounted s).counters[k.index] =
      if k = .serviceAborts ∧ s.service.receiving ≠ .nothing then raise16 s.counters[k.index] else s.counters[k.index] := by
  unfold State.abortCounted
  by_cases h : s.service.receiving = .nothing
  · rw [if_neg (mt (ServiceChannel.inPacket_iff _).1 (not_not.2 h)), if_neg fun hk => hk.2 h]
  · rw [if_pos ((ServiceChannel.inPacket_iff _).2 h), State.count_counter, State.abortReceive_counters]
    simp only [h, ne_eq, not_false_eq_true, and_true]

/-! ### Leaving ALIGNED (R14, R20, R113) -/

theorem State.leaveAligned_service (s : State) (st : AlignState) :
    (State.leaveAligned s st).service = (State.abortReceive s).service :=
  (State.abortCounted_service _).trans (State.abortReceive_service_congr rfl)

theorem State.leaveAligned_events (s : State) (st : AlignState) :
    (State.leaveAligned s st).events =
      EventUnit.post s.aligner.flywheel.superframe s.engine.address .alignLost none none s.events := by
  unfold State.leaveAligned
  rw [State.abortCounted_frame]; rfl

theorem State.leaveAligned_counter (s : State) (st : AlignState) (k : CounterName) :
    (State.leaveAligned s st).counters[k.index] =
      if k = .alignLosses ∨ (k = .serviceAborts ∧ s.service.receiving ≠ .nothing) then raise16 s.counters[k.index]
      else s.counters[k.index] := by
  unfold State.leaveAligned
  rw [State.abortCounted_counter, State.count_counter]
  by_cases hk : k = .alignLosses
  · subst hk; simp
  · simp [hk]

/-! ### The two commands of the carrier -/

theorem takenWhen_next {s : State} (hr : s.resetN = true) {may : Bool} (hm : may = true) (t : State) :
    takenWhen may s t = .next t := by
  simp only [takenWhen, hr, hm, Bool.and_self, if_true]

/-- The node once the loss of the carrier is recorded, before the aligner follows (R14). -/
def State.carrierGone (s : State) : State :=
  State.post { s with aligner := { s.aligner with carrier := false } } .signalLost none none

theorem exec_signalLost_unaligned {s : State} (hr : s.resetN = true) (hn : s.aligner.align ≠ .noSignal)
    (ha : s.aligner.align ≠ .aligned) :
    exec .signalLost s = .next { State.carrierGone s with
      aligner := Aligner.countsCleared (State.carrierGone s).aligner .noSignal } := by
  change takenWhen _ s _ = _
  rw [takenWhen_next hr (decide_eq_true hn), if_neg ha]; rfl

theorem exec_signalLost_aligned {s : State} (hr : s.resetN = true) (ha : s.aligner.align = .aligned) :
    exec .signalLost s = .next (State.leaveAligned (State.carrierGone s) .noSignal) := by
  change takenWhen _ s _ = _
  rw [takenWhen_next hr (by rw [ha]; rfl), if_pos ha]; rfl

theorem exec_signalBack_noSignal {s : State} (hr : s.resetN = true) (ha : s.aligner.align = .noSignal) :
    exec .signalBack s = .next
      (State.post { s with aligner := { s.aligner with carrier := true, align := .hunt, keptBits := [] } } .signalBack none none) :=
  takenWhen_next hr (decide_eq_true ha) _

end Sys2Proof.Machine

namespace Sys2Proof.Proofs

open Sys2Proof Sys2Proof.Machine

/-- Settles O8: in HUNT and CONFIRM the loss of the carrier clears the aligner's counts, in ALIGNED it is a departure from
ALIGNED behind the record of SIGNAL_LOST, and its return in NO_SIGNAL opens an empty search. -/
theorem carrierGoesAndReturns : Obligations.CarrierGoesAndReturns := by
  intro s hr
  refine ⟨fun hsearch => ?searching, fun ha => ?aligned, fun ha => exec_signalBack_noSignal hr ha⟩
  case searching =>
    have hn : s.aligner.align ≠ .noSignal := by rcases hsearch with h | h <;> rw [h] <;> decide
    have ha : s.aligner.align ≠ .aligned := by rcases hsearch with h | h <;> rw [h] <;> decide
    exact exec_signalLost_unaligned hr hn ha
  case aligned =>
    have hservice : (State.leaveAligned (State.carrierGone s) .noSignal).service = (State.abortReceive s).service :=
      (State.leaveAligned_service _ _).trans (State.abortReceive_service_congr rfl)
    refine ⟨_, exec_signalLost_aligned hr ha, ?frame, ?idle, fun k => State.leaveAligned_counter _ _ k⟩
    case frame =>
      conv => lhs; rw [State.leaveAligned_frame, hservice, State.leaveAligned_events]
      rfl
    case idle => rw [hservice, State.abortReceive_receiving]

end Sys2Proof.Proofs

/-! SUPPORT. The arbiter (R121 to R126, R160): which case of R124 supplies the segment, what each case gives, the wait count
behind it, and the settlement of O27. -/

namespace Sys2Proof.Machine

/-! ### The own packet that is ready (R124, R141) -/

theorem Engine.readyReply_isSome_iff (e : Engine) :
    (Engine.readyReply e).isSome = true ↔ ∃ r ∈ e.replies, r.begun = false := by
  simp only [Engine.readyReply, List.find?_isSome, Bool.not_eq_true']

theorem State.ownReady_iff (s : State) :
    State.ownReady s = true ↔ (∃ r ∈ s.engine.replies, r.begun = false) ∨ s.events.slot ≠ none := by
  rw [State.ownReady, Bool.or_eq_true, Engine.readyReply_isSome_iff, Option.isSome_iff_ne_none]

theorem Engine.readyReply_of_split {e : Engine} {before later : List Reply} {r : Reply}
    (hs : e.replies = before ++ r :: later) (hb : ∀ q ∈ before, q.begun = true) (hr : r.begun = false) :
    Engine.readyReply e = some r := by
  rw [Engine.readyReply, hs, List.find?_append, List.find?_eq_none.2 fun q hq => by simp [hb q hq]]
  simp [hr]

theorem Engine.readyReply_of_begun {e : Engine} (h : ∀ r ∈ e.replies, r.begun = true) : Engine.readyReply e = none :=
  List.find?_eq_none.2 fun r hr => by simp [h r hr]

theorem beginOldest_of_split {before later : List Reply} {r : Reply} (hb : ∀ q ∈ before, q.begun = true)
    (hr : r.begun = false) : beginOldest (before ++ r :: later) = before ++ { r with begun := true } :: later := by
  induction before with
  | nil => simp [beginOldest, hr]
  | cons q rest ih =>
    have hrest := ih fun x hx => hb x (List.mem_cons_of_mem q hx)
    rw [List.cons_append, beginOldest, if_pos (hb q List.mem_cons_self), hrest, List.cons_append]

/-! ### The next segment of a packet (R121 to R123, R126) -/

theorem Packet.length_octets (p : Packet) : (Packet.octets p).length = 8 + p.params.length := by
  simp only [Packet.octets, Packet.body, octets16, List.length_append, List.length_cons, List.length_nil]
  omega

theorem transitKind_last (first : Prop) [Decidable first] :
    transitKind (decide first) true = if first then .single else .ending := by
  by_cases h : first <;> simp [h, transitKind]

theorem transitKind_more (first : Prop) [Decidable first] :
    transitKind (decide first) false = if first then .start else .middle := by
  by_cases h : first <;> simp [h, transitKind]

theorem TransitPacket.endsNext_iff (p : TransitPacket) :
    TransitPacket.endsNext p = true ↔ p.mark = .complete ∧ p.held.length ≤ 3 := by
  simp only [TransitPacket.endsNext, Bool.and_eq_true, decide_eq_true_eq, List.isEmpty_iff, List.drop_eq_nil_iff]

section
variable {s : State} {p : TransitPacket} {rest : List TransitPacket}

theorem State.giveTransit_of_starved (hq : s.service.transit = p :: rest) (hh : p.held = []) (hm : p.mark = .incomplete) :
    State.giveTransit s = ⟨idleSegment, .nothing, .neither, State.withEmission s .transit (p :: rest)⟩ := by
  simp only [State.giveTransit, hq, hh, hm, List.isEmpty_nil, if_true, reduceCtorEq, if_false]

theorem State.giveTransit_of_aborted (hq : s.service.transit = p :: rest) (hh : p.held = []) (hm : p.mark = .aborted) :
    State.giveTransit s = ⟨Segment.build .abort [], .nothing, .neither, State.withEmission s .nothing rest⟩ := by
  simp only [State.giveTransit, hq, hh, hm, List.isEmpty_nil, if_true]

theorem State.giveTransit_of_last (hq : s.service.transit = p :: rest) (hh : p.held ≠ []) (hm : p.mark = .complete)
    (hl : p.held.length ≤ 3) :
    State.giveTransit s =
      ⟨Segment.build (if p.forwarded = 0 then .single else .ending) p.held,
        match p.request with | some n => .forwarded n | none => .nothing, .neither, State.withEmission s .nothing rest⟩ := by
  have hfull : ¬p.held.isEmpty = true := mt List.isEmpty_iff.1 hh
  have hends : TransitPacket.endsNext p = true := (TransitPacket.endsNext_iff p).2 ⟨hm, hl⟩
  have hkind := transitKind_last (p.forwarded = 0)
  have hall : p.held.take 3 = p.held := List.take_of_length_le hl
  calc State.giveTransit s
      = ⟨Segment.build (transitKind (p.forwarded = 0) true) (p.held.take 3),
          match p.request with | some n => .forwarded n | none => .nothing, .neither, State.withEmission s .nothing rest⟩ := by
        rw [State.giveTransit, hq]
        exact (if_neg hfull).trans (if_pos hends)
    _ = _ := by rw [hkind, hall]

theorem State.giveTransit_of_more (hq : s.service.transit = p :: rest) (hh : p.held ≠ [])
    (hm : p.mark ≠ .complete ∨ 3 < p.held.length) :
    State.giveTransit s =
      ⟨Segment.build (if p.forwarded = 0 then .start else .middle) (p.held.take 3), .nothing, .neither,
        State.withEmission s .transit
          ({ p with held := p.held.drop 3, forwarded := p.forwarded + min 3 p.held.length } :: rest)⟩ := by
  have hfull : ¬p.held.isEmpty = true := mt List.isEmpty_iff.1 hh
  have hgoes : ¬TransitPacket.endsNext p = true := by
    rw [TransitPacket.endsNext_iff, not_and_or, not_le]; exact hm
  simp only [State.giveTransit, hq, if_neg hfull, if_neg hgoes, transitKind_more, List.length_take]

end

/-- A segment of the transit queue belongs to no own packet and writes the packet in emission and the queue alone. -/
theorem State.giveTransit_part (s : State) :
    (State.giveTransit s).part = .neither ∧ ∃ e q, (State.giveTransit s).after = State.withEmission s e q := by
  unfold State.giveTransit
  split
  · exact ⟨rfl, s.service.emission, s.service.transit, rfl⟩
  · split
    · split <;> exact ⟨rfl, _, _, rfl⟩
    · split <;> exact ⟨rfl, _, _, rfl⟩

theorem State.giveOwn_of_last {s : State} {o : PacketOwner} {p : Packet} {sent : Nat} {part : OwnPart}
    (hl : (Packet.octets p).length ≤ sent + 3) :
    State.giveOwn s o p sent part =
      ⟨Segment.build .ending ((Packet.octets p).drop sent), PacketOwner.ends o p, part,
        State.withEmission s .nothing s.service.transit⟩ := by
  have hchunk : ((Packet.octets p).drop sent).length ≤ 3 := by rw [List.length_drop]; omega
  simp only [State.giveOwn, if_pos hl, List.take_of_length_le hchunk]

theorem State.giveOwn_of_more {s : State} {o : PacketOwner} {p : Packet} {sent : Nat} {part : OwnPart}
    (hl : sent + 3 < (Packet.octets p).length) :
    State.giveOwn s o p sent part =
      ⟨Segment.build (if sent = 0 then .start else .middle) (((Packet.octets p).drop sent).take 3), .nothing, part,
        State.withEmission s (.own o p (sent + 3)) s.service.transit⟩ := by
  simp only [State.giveOwn, if_neg (not_le.2 hl)]

/-- The first segment of an own packet is a START, for every packet has at least 8 octets (R126, R131). -/
theorem State.giveOwn_first (s : State) (o : PacketOwner) (p : Packet) (part : OwnPart) :
    State.giveOwn s o p 0 part =
      ⟨Segment.build .start ((Packet.octets p).take 3), .nothing, part, State.withEmission s (.own o p 3) s.service.transit⟩ :=
  State.giveOwn_of_more (by rw [Packet.length_octets]; omega)

theorem State.beginOwn_of_reply {s : State} {r : Reply} (h : Engine.readyReply s.engine = some r) :
    State.beginOwn s =
      State.giveOwn { s with engine := { s.engine with replies := beginOldest s.engine.replies } } .engine r.packet 0 .began := by
  simp only [State.beginOwn, h]

theorem State.beginOwn_of_slot {s : State} {c : ClassId} {p : Packet} (h : Engine.readyReply s.engine = none)
    (hs : s.events.slot = some (c, p)) :
    State.beginOwn s =
      State.giveOwn { s with events := EventUnit.slotTaken s.engine.address s.events } (.eventUnit c) p 0 .began := by
  simp only [State.beginOwn, h, hs]

/-! ### The case of R124 -/

section
variable {s : State}

theorem State.choose_own {o : PacketOwner} {p : Packet} {sent : Nat} (he : s.service.emission = .own o p sent) :
    State.choose s = State.giveOwn s o p sent .continued := by
  simp only [State.choose, he]

theorem State.choose_abortDue (he : s.service.emission = .abortDue) :
    State.choose s = ⟨Segment.build .abort [], .nothing, .neither, State.withEmission s .nothing s.service.transit⟩ := by
  simp only [State.choose, he]

theorem State.choose_transit (hq : s.service.transit ≠ [])
    (hc : s.service.emission = .transit ∨
      s.service.emission = .nothing ∧ (¬State.ownReady s = true ∨ s.service.waitCount ≤ 64)) :
    State.choose s = State.giveTransit s := by
  obtain he | ⟨he, hw⟩ := hc
  · simp only [State.choose, he]
  · have hnotDue : ¬(State.ownReady s && decide (64 < s.service.waitCount)) = true := by
      rw [Bool.and_eq_true, decide_eq_true_eq, not_and_or, not_lt]; exact hw
    simp only [State.choose, he, if_neg hnotDue, List.isEmpty_eq_false_iff.2 hq, Bool.not_false, if_true]

theorem State.choose_begin (he : s.service.emission = .nothing) (hw : s.service.transit = [] ∨ 64 < s.service.waitCount)
    (hr : State.ownReady s = true) : State.choose s = State.beginOwn s := by
  by_cases h : 64 < s.service.waitCount
  · simp only [State.choose, he, hr, h, decide_true, Bool.and_self, if_true]
  · simp only [State.choose, he, hr, h, hw.resolve_right h, decide_false, Bool.and_false, List.isEmpty_nil, Bool.not_true,
      Bool.false_eq_true, if_false, if_true]

theorem State.choose_idle (he : s.service.emission = .nothing) (hq : s.service.transit = [])
    (hr : ¬State.ownReady s = true) : State.choose s = ⟨idleSegment, .nothing, .neither, s⟩ := by
  simp only [State.choose, he, hq, Bool.not_eq_true _ ▸ hr, Bool.false_and, List.isEmpty_nil, Bool.not_true,
    Bool.false_eq_true, if_false]

end

/-! ### The segment with the wait count behind it (R125) -/

/-- What the arbiter gives, once the wait count has followed the choice `g`. -/
def Given.counted (g : Given) : Given :=
  { g with after := { g.after with service := { g.after.service with
      waitCount := waitAfter g.part (State.ownReady g.after) g.after.service.waitCount } } }

theorem State.arbitrate_of_choose {s : State} {g : Given} (h : State.choose s = g) :
    State.arbitrate s = Given.counted g := by
  rw [← h]; rfl

theorem Given.counted_transit_waitCount (s : State) :
    (Given.counted (State.giveTransit s)).after.service.waitCount =
      if State.ownReady s then min 65 (s.service.waitCount + 1) else 0 := by
  obtain ⟨hpart, e, q, hafter⟩ := State.giveTransit_part s
  simp only [Given.counted, hpart, hafter]; rfl

end Sys2Proof.Machine

namespace Sys2Proof.Proofs

open Sys2Proof Sys2Proof.Machine

/-- Settles O27: in each case of R124 the arbiter's choice is one equation, and the wait count follows from the part of an own
packet that the choice placed. -/
theorem arbiterChoosesTheSegment : Obligations.ArbiterChoosesTheSegment := by
  intro s
  dsimp only
  refine ⟨?ownMore, ?ownLast, ?transit, ?abortDue, ?begins, ?idle⟩
  case ownMore =>
    intro o p sent he hl
    rw [State.arbitrate_of_choose ((State.choose_own he).trans (State.giveOwn_of_more hl))]
    exact ⟨rfl, rfl, rfl, rfl, if_congr (State.ownReady_iff s) rfl rfl⟩
  case ownLast =>
    intro o p sent he hl
    rw [State.arbitrate_of_choose ((State.choose_own he).trans (State.giveOwn_of_last hl))]
    exact ⟨rfl, rfl, rfl, rfl, if_congr (State.ownReady_iff s) rfl rfl⟩
  case transit =>
    intro p rest hq hc
    rw [← State.ownReady_iff] at hc
    have hgive : State.choose s = State.giveTransit s := State.choose_transit (by rw [hq]; exact List.cons_ne_nil _ _) hc
    rw [State.arbitrate_of_choose hgive]
    refine ⟨?wait, fun hh hm => ?starved, fun hh hm => ?aborted, fun hh hm hl => ?last, fun hh hm => ?more⟩
    case wait => exact (Given.counted_transit_waitCount s).trans (if_congr (State.ownReady_iff s) rfl rfl)
    case starved => rw [State.giveTransit_of_starved hq hh hm]; exact ⟨rfl, rfl, rfl, rfl⟩
    case aborted => rw [State.giveTransit_of_aborted hq hh hm]; exact ⟨rfl, rfl, rfl, rfl⟩
    case last => rw [State.giveTransit_of_last hq hh hm hl]; exact ⟨rfl, rfl, rfl, rfl⟩
    case more => rw [State.giveTransit_of_more hq hh hm]; exact ⟨rfl, rfl, rfl, rfl⟩
  case abortDue =>
    intro he
    rw [State.arbitrate_of_choose (State.choose_abortDue he)]
    exact ⟨rfl, rfl, rfl⟩
  case begins =>
    intro he hw
    refine ⟨fun before r later hs hb hr => ?reply, fun c p hb hs => ?notification⟩
    case reply =>
      have hready : State.ownReady s = true :=
        (State.ownReady_iff s).2 (.inl ⟨r, by rw [hs]; exact List.mem_append_cons_self, hr⟩)
      have hbegin := State.beginOwn_of_reply (Engine.readyReply_of_split hs hb hr)
      have hmarked : beginOldest s.engine.replies = before ++ { r with begun := true } :: later := by
        rw [hs, beginOldest_of_split hb hr]
      rw [State.arbitrate_of_choose (State.choose_begin he hw hready), hbegin, State.giveOwn_first, hmarked]
      exact ⟨rfl, rfl, rfl, rfl, rfl, rfl, rfl⟩
    case notification =>
      have hready : State.ownReady s = true := (State.ownReady_iff s).2 (.inr (by rw [hs]; exact Option.some_ne_none _))
      have hbegin := State.beginOwn_of_slot (Engine.readyReply_of_begun hb) hs
      rw [State.arbitrate_of_choose (State.choose_begin he hw hready), hbegin, State.giveOwn_first]
      exact ⟨rfl, rfl, rfl, rfl, rfl, rfl, rfl⟩
  case idle =>
    intro he hq hr
    rw [← State.ownReady_iff] at hr
    rw [State.arbitrate_of_choose (State.choose_idle he hq hr)]
    have hcount : waitAfter .neither (State.ownReady s) s.service.waitCount = 0 := if_neg hr
    refine ⟨rfl, rfl, ?_⟩
    simp only [Given.counted, hcount]

end Sys2Proof.Proofs

/-! SUPPORT. A post to the Event Unit (R154, R155): the record a post may be counted into, one equation for each of the four
cases of R154, and the settlement of O31. -/

namespace Sys2Proof.Machine

/-! ### The record that a post is counted into (R151, R154) -/

/-- The coalescing kinds are the five that R151 names. -/
theorem EventKind.coalesces_iff (k : EventKind) :
    EventKind.coalesces k = true ↔
      k = .dropSlip ∨ k = .addSlip ∨ k = .qualityLow ∨ k = .transitOverflow ∨ k = .requestDropped := by
  cases k <;> decide

theorem EventUnit.newestCarried_eq_false_iff (ev : EventUnit) (c : ClassId) :
    EventUnit.newestCarried ev c = false ↔ ∀ v, ev.service[c] = some v → v.carried < ev.queues[c].length := by
  unfold EventUnit.newestCarried
  cases ev.service[c] with
  | none => simp
  | some v => simp

/-- Exactly when a post is coalesced (R154, case 2), which adds the converse to `EventUnit.coalesceWith_some`. -/
theorem EventUnit.coalesceWith_eq_some_iff (ev : EventUnit) (c : ClassId) (k : EventKind) (src : Option WatchId)
    (r : EventRecord) :
    EventUnit.coalesceWith ev c k src = some r ↔
      EventKind.coalesces k = true ∧ EventUnit.newestCarried ev c = false ∧ ev.queues[c].getLast? = some r ∧ r.kind = k ∧
        r.source = src := by
  refine ⟨EventUnit.coalesceWith_some ev c k src r, fun ⟨hk, hn, hlast, hkind, hsrc⟩ => ?_⟩
  simp only [EventUnit.coalesceWith, hk, hn, hlast, hkind, hsrc, Bool.not_false, Bool.and_self, and_self, if_true]

/-! ### The four cases (R154, R155) -/

/-- A count that stays at 255, with the octet it stays at written out. -/
theorem raise8_eq (n : BitVec 8) : raise8 n = if n = 255#8 then 255#8 else n + 1#8 := by
  unfold raise8
  split
  · assumption
  · rfl

section
variable {ev : EventUnit} {k : EventKind} {src : Option WatchId}

theorem EventUnit.record_of_disabled (sf : Superframe) (val : Option Sample) (h : ev.kinds[k.index].enabled = false) :
    EventUnit.record ev sf k src val = ev := by
  simp only [EventUnit.record, h, Bool.not_false, if_true]

theorem EventUnit.record_of_coalesced (sf : Superframe) (val : Option Sample) {r : EventRecord}
    (h : ev.kinds[k.index].enabled = true) (hr : EventUnit.coalesceWith ev ev.kinds[k.index].cls k src = some r) :
    EventUnit.record ev sf k src val = { ev with
      queues := ev.queues.set ev.kinds[k.index].cls
        (ev.queues[ev.kinds[k.index].cls].dropLast ++ [{ r with occurrences := raise8 r.occurrences }]) } := by
  simp only [EventUnit.record, h, hr, Bool.not_true, Bool.false_eq_true, if_false]

theorem EventUnit.record_of_free (sf : Superframe) (val : Option Sample) (h : ev.kinds[k.index].enabled = true)
    (hr : EventUnit.coalesceWith ev ev.kinds[k.index].cls k src = none) (hf : 0 < ev.free) :
    EventUnit.record ev sf k src val = { ev with
      free := ev.free - 1
      queues := ev.queues.set ev.kinds[k.index].cls (ev.queues[ev.kinds[k.index].cls] ++
        [{ kind := k, source := src, superframe := sf, occurrences := 1#8, value := val }]) } := by
  simp only [EventUnit.record, h, hr, hf, Bool.not_true, Bool.false_eq_true, if_false, if_true]

theorem EventUnit.record_of_full (sf : Superframe) (val : Option Sample) (h : ev.kinds[k.index].enabled = true)
    (hr : EventUnit.coalesceWith ev ev.kinds[k.index].cls k src = none) (hf : ev.free = 0) :
    EventUnit.record ev sf k src val = { ev with
      lost := ev.lost.set ev.kinds[k.index].cls (raise8 ev.lost[ev.kinds[k.index].cls]) } := by
  simp only [EventUnit.record, h, hr, hf, Bool.not_true, Bool.false_eq_true, if_false, lt_irrefl]

end

end Sys2Proof.Machine

namespace Sys2Proof.Proofs

open Sys2Proof Sys2Proof.Machine

/-- Settles O31: the record that R154 lets a post join is the one the model coalesces with, so that the four cases are the four
equations of the handling. -/
theorem postIsHandledByFourCases : Obligations.PostIsHandledByFourCases := by
  intro ev sf k src val
  extract_lets c mayJoin
  have joins_iff (r : EventRecord) : EventUnit.coalesceWith ev c k src = some r ↔ mayJoin r := by
    rw [EventUnit.coalesceWith_eq_some_iff, EventKind.coalesces_iff, EventUnit.newestCarried_eq_false_iff]
    exact and_congr_right fun _ => ⟨fun ⟨hfree, hlast, hkind, hsrc⟩ => ⟨hlast, hkind, hsrc, hfree⟩,
      fun ⟨hlast, hkind, hsrc, hfree⟩ => ⟨hfree, hlast, hkind, hsrc⟩⟩
  have joins_none (h : ∀ r, ¬mayJoin r) : EventUnit.coalesceWith ev c k src = none :=
    Option.eq_none_iff_forall_ne_some.2 fun r hr => h r ((joins_iff r).1 hr)
  refine ⟨fun s => rfl, fun address => rfl, fun hoff => ?disabled, fun hon => ⟨fun r hr => ?coalesced,
    fun hnone hfree => ?newRecord, fun hnone hfull => ?lost⟩⟩
  case disabled => exact EventUnit.record_of_disabled sf val hoff
  case coalesced => rw [EventUnit.record_of_coalesced sf val hon ((joins_iff r).2 hr), raise8_eq]
  case newRecord => exact EventUnit.record_of_free sf val hon (joins_none hnone) hfree
  case lost => rw [EventUnit.record_of_full sf val hon (joins_none hnone) hfull, raise8_eq]

end Sys2Proof.Proofs

/-! SUPPORT. The commands: which request a command delivers, and what a command does to the node, said once for every proof
about steps. -/

namespace Sys2Proof.Machine

set_option Elab.async false

/-! ### The commands that deliver a request (R133) -/

/-- The delivery, the operation and the parameter octets of the request that a command delivers, where it delivers one. -/
def deliveredBy : Instr → Option (Delivery × Operation × List Octet)
  | .identify d ps => some (d, .identify, ps)
  | .assignAddress d ps => some (d, .assignAddress, ps)
  | .readStatus d ps => some (d, .readStatus, ps)
  | .setIdleWord d w => some (d, .writeNodeSetup, nodeSetupOctets 0x01#8 w 0#16 0#8 0#8 0#8)
  | .setQualityThreshold d n => some (d, .writeNodeSetup, nodeSetupOctets 0x02#8 0#24 n 0#8 0#8 0#8)
  | .setForcedRehunt d o => some (d, .writeNodeSetup, nodeSetupOctets 0x04#8 0#24 0#16 o 0#8 0#8)
  | .setLocalMode d o => some (d, .writeNodeSetup, nodeSetupOctets 0x08#8 0#24 0#16 0#8 o 0#8)
  | .setRetryTime d o => some (d, .writeNodeSetup, nodeSetupOctets 0x10#8 0#24 0#16 0#8 0#8 o)
  | .writeMap d ps => some (d, .writeMap, ps)
  | .readMap d ps => some (d, .readMap, ps)
  | .copyActive d ps => some (d, .copyActive, ps)
  | .checkMap d ps => some (d, .checkMap, ps)
  | .scheduleSwitch d ps => some (d, .scheduleSwitch, ps)
  | .cancelSwitch d ps => some (d, .cancelSwitch, ps)
  | .writeWatch d ps => some (d, .writeWatch, ps)
  | .readWatch d ps => some (d, .readWatch, ps)
  | .writeEventSetup d ps => some (d, .writeEventSetup, ps)
  | .readClass d ps => some (d, .readClass, ps)
  | .discardClass d ps => some (d, .discardClass, ps)
  | .readCounters d r => some (d, .readCounters, [r ++ 0#1])
  | .readCountersClear d r => some (d, .readCounters, [r ++ 1#1])
  | .resetNodeCold d => some (d, .resetNode, [0x00#8])
  | .resetNodeWarm d => some (d, .resetNode, [0x01#8])
  | .writeNodeSetup d ps => some (d, .writeNodeSetup, ps)
  | _ => none

theorem exec_of_deliveredBy {c : Instr} {d : Delivery} {op : Operation} {params : List Octet}
    (h : deliveredBy c = some (d, op, params)) (s : State) : exec c s = .next (State.deliver s d op params) := by
  cases c <;> cases h <;> rfl

/-- The two parts of the clear octet of a READ_COUNTERS are the octet (R178). -/
theorem clearOctet_eq (o : Octet) : o.extractLsb' 1 7 ++ BitVec.ofBool (o.getLsbD 0) = o := by
  ext i hi
  rw [BitVec.getElem_append]
  split
  · have : i = 0 := by omega
    subst this
    simp
  · simp [show 1 + (i - 1) = i by omega, BitVec.getLsbD_eq_getElem hi]

theorem deliveredBy_requestCommand {op : Operation} {d : Delivery} {params : List Octet} {c : Instr}
    (h : requestCommand op d params = some c) : deliveredBy c = some (d, op, params) := by
  cases op
  case readCounters =>
    match params, h with
    | [o], h =>
      have heq := clearOctet_eq o
      cases ho : o.getLsbD 0
      all_goals
        simp only [requestCommand, ho, if_true, Bool.false_eq_true, if_false, Option.some.injEq] at h
        subst h
        rw [ho] at heq
        exact congrArg (fun x => some (d, Operation.readCounters, [x])) heq
  case resetNode =>
    match params, h with
    | [o], h =>
      simp only [requestCommand] at h
      split at h
      · next ho => cases h; rw [ho]; rfl
      · split at h
        · next ho => cases h; rw [ho]; rfl
        · cases h
  all_goals cases h; rfl

/-- The command of a request, in the statements' sense, delivers that request. -/
theorem deliveredBy_of_deliversRequest {c : Instr} {d : Delivery} {op : Operation} {params : List Octet}
    (h : deliversRequest c d op params) : deliveredBy c = some (d, op, params) := by
  obtain ⟨-, h | ⟨rfl, ⟨w, rfl, rfl⟩ | ⟨n, rfl, rfl⟩ | ⟨o, rfl, rfl⟩ | ⟨o, rfl, rfl⟩ | ⟨o, rfl, rfl⟩⟩⟩ := h
  · exact deliveredBy_requestCommand h
  all_goals rfl

/-! ### What a command does -/

/-- The node as `c` leaves it, one case for each way in which a command acts; a command whose event cannot happen leaves the
node as it is (log entry 4). -/
inductive Ran (s : State) : Instr → State → Prop
  | stays (c : Instr) : Ran s c s
  | poweredOn (high carrier : Bool) : Ran s (.powerOn high carrier) { State.released s carrier with resetN := high }
  | held : Ran s .hardwareResetAssert (State.heldInReset s)
  | released (carrier : Bool) (hr : s.resetN = false) : Ran s (.hardwareResetRelease carrier) (State.released s carrier)
  | signalLost (hr : s.resetN = true) (hn : s.aligner.align ≠ .noSignal) (ha : s.aligner.align ≠ .aligned) :
    Ran s .signalLost
      { State.carrierGone s with aligner := Aligner.countsCleared (State.carrierGone s).aligner .noSignal }
  | alignmentLost (hr : s.resetN = true) (ha : s.aligner.align = .aligned) :
    Ran s .signalLost (State.leaveAligned (State.carrierGone s) .noSignal)
  | signalBack (hr : s.resetN = true) (ha : s.aligner.align = .noSignal) :
    Ran s .signalBack
      (State.post { s with aligner := { s.aligner with carrier := true, align := .hunt, keptBits := [] } } .signalBack none none)
  | hunted (candidate : Option Frame) (hr : s.resetN = true) (ha : s.aligner.align = .hunt) :
    Ran s (.huntCandidate candidate) (State.huntFor s candidate)
  | confirmed (f : Frame) (hr : s.resetN = true) (ha : s.aligner.align = .confirm) :
    Ran s (.confirmFrame f) (State.confirmWith s f)
  | classified (c : Instr) (f : Frame)
    (hc : c = .frameClassified f ∨ ∃ received, c = .frameDueWithoutClock received ∧ Frame.ofBits received = f)
    (hr : s.resetN = true) (ha : s.aligner.align = .aligned) : Ran s c (State.classify s f)
  | substituteBegan (hr : s.resetN = true) (hm : State.substituteMayStart (State.endFrame s) = true) :
    Ran s .substituteFrameStart (State.beginSubstitute (State.endFrame s))
  | forwardedBegan (c : Copy) (rest : List Copy) (hr : s.resetN = true)
    (hc : (State.endFrame s).ringOut.copies = c :: rest) :
    Ran s .forwardedFrameStart (State.beginForwarded (State.endFrame s) c rest)
  | payloadCompleted (hr : s.resetN = true) : Ran s .payloadComplete (State.finishPayload s)
  | frameEnded (c : Instr)
    (hc : c = .ownPacketComplete ∨ (∃ n, c = .forwardedEndReport n) ∨ c = .emittedFrameBoundary) (hr : s.resetN = true) :
    Ran s c (State.endFrame s)
  | forwardedReported (n : Nat) (hr : s.resetN = true) (hm : State.mayReportForwarded s n = true) :
    Ran s (.forwardedEndReport n) (State.forwardedReport s n)
  | localFrameBegan (hr : s.resetN = true) (hm : s.port.mode = .follow) (hd : s.port.startDue = true) :
    Ran s .localFrameStart (State.beginLocalFrame s)
  | externalStarted (hr : s.resetN = true) (hm : s.port.mode = .external) :
    Ran s .localFrameStart (State.externalStart s)
  | localFrameCompleted (add : LocalSamples) (hr : s.resetN = true) :
    Ran s (.localFrameComplete add) (State.completeLocalFrame s add)
  | localTimingLost (hr : s.resetN = true) (hd : LocalPort.lossDue (State.endFrame s).port = true) :
    Ran s .localTimingLost (State.watchdogShare (State.endFrame s))
  | expired (cls : ClassId) (hr : s.resetN = true) (hd : EventUnit.expiryDue s.events cls = true) :
    Ran s (.retryTimerExpiry cls)
      { s with
        events := EventUnit.expire s.aligner.flywheel.superframe s.engine.address (State.notificationEmitting s) cls s.events }
  | requestTaken (hr : s.resetN = true) : Ran s .takeRequest (State.take s)
  | delivered (c : Instr) (d : Delivery) (op : Operation) (params : List Octet)
    (hc : deliveredBy c = some (d, op, params)) : Ran s c (State.deliver s d op params)

/-- An event that the node may take is taken, and otherwise leaves the node as it is. -/
theorem takenWhen_cases {may : Bool} {s u t : State} (h : takenWhen may s u = .next t) :
    (s.resetN = true ∧ may = true ∧ t = u) ∨ t = s := by
  unfold takenWhen at h
  split at h
  · next hm => cases h; exact .inl ⟨(Bool.and_eq_true _ _ ▸ hm).1, (Bool.and_eq_true _ _ ▸ hm).2, rfl⟩
  · cases h; exact .inr rfl

/-- A command of an event has acted in one of the ways of `Ran` where its taken event has. -/
theorem Ran.of_takenWhen {may : Bool} {s u t : State} {c : Instr} (h : takenWhen may s u = .next t)
    (hu : s.resetN = true → may = true → Ran s c u) : Ran s c t := by
  obtain ⟨hr, hm, rfl⟩ | rfl := takenWhen_cases h
  · exact hu hr hm
  · exact .stays c

theorem ran_of_exec {c : Instr} {s t : State} (h : exec c s = .next t) : Ran s c t := by
  cases c
  case powerOn high carrier => cases h; exact .poweredOn high carrier
  case hardwareResetAssert => cases h; exact .held
  case hardwareResetRelease carrier =>
    change Host.Outcome.next (if s.resetN then s else State.released s carrier) = _ at h
    cases hr : s.resetN
    · rw [if_neg (by simp [hr])] at h; cases h; exact .released carrier hr
    · rw [if_pos hr] at h; cases h; exact .stays _
  case signalLost =>
    refine .of_takenWhen h fun hr hm => ?_
    split
    · next ha => exact .alignmentLost hr ha
    · next ha => exact .signalLost hr (of_decide_eq_true hm) ha
  case signalBack => exact .of_takenWhen h fun hr hm => .signalBack hr (of_decide_eq_true hm)
  case frameDueWithoutClock received =>
    exact .of_takenWhen h fun hr hm => .classified _ _ (.inr ⟨received, rfl, rfl⟩) hr (of_decide_eq_true hm)
  case huntCandidate candidate => exact .of_takenWhen h fun hr hm => .hunted candidate hr (of_decide_eq_true hm)
  case confirmFrame f => exact .of_takenWhen h fun hr hm => .confirmed f hr (of_decide_eq_true hm)
  case frameClassified f => exact .of_takenWhen h fun hr hm => .classified _ f (.inl rfl) hr (of_decide_eq_true hm)
  case substituteFrameStart => exact .of_takenWhen h fun hr hm => .substituteBegan hr hm
  case forwardedFrameStart =>
    change execForwardedFrameStart s = _ at h
    unfold execForwardedFrameStart at h
    split at h
    · next copy rest hcopies => exact .of_takenWhen h fun hr _ => .forwardedBegan copy rest hr hcopies
    · cases h; exact .stays _
  case payloadComplete => exact .of_takenWhen h fun hr _ => .payloadCompleted hr
  case ownPacketComplete => exact .of_takenWhen h fun hr _ => .frameEnded _ (.inl rfl) hr
  case forwardedEndReport n =>
    refine .of_takenWhen h fun hr hm => ?_
    split
    · exact .frameEnded _ (.inr (.inl ⟨n, rfl⟩)) hr
    · next hn => exact .forwardedReported n hr (by simpa [hn] using hm)
  case localFrameStart =>
    change execLocalFrameStart s = _ at h
    unfold execLocalFrameStart at h
    split at h
    · cases h; exact .stays _
    · next hmode => exact .of_takenWhen h fun hr hd => .localFrameBegan hr hmode hd
    · next hmode => exact .of_takenWhen h fun hr _ => .externalStarted hr hmode
  case localFrameComplete add => exact .of_takenWhen h fun hr _ => .localFrameCompleted add hr
  case localTimingLost => exact .of_takenWhen h fun hr hd => .localTimingLost hr hd
  case retryTimerExpiry cls => exact .of_takenWhen h fun hr hd => .expired cls hr hd
  case takeRequest => exact .of_takenWhen h fun hr _ => .requestTaken hr
  case emittedFrameBoundary => exact .of_takenWhen h fun hr _ => .frameEnded _ (.inr (.inr rfl)) hr
  all_goals cases h; exact .delivered _ _ _ _ rfl

/-- Every command answers a next state (R184, log entry 4). -/
theorem exec_total (c : Instr) (s : State) : ∃ t, exec c s = .next t := by
  cases c
  case forwardedFrameStart =>
    change ∃ t, execForwardedFrameStart s = .next t
    unfold execForwardedFrameStart
    split <;> exact ⟨_, rfl⟩
  case localFrameStart =>
    change ∃ t, execLocalFrameStart s = .next t
    unfold execLocalFrameStart
    split <;> exact ⟨_, rfl⟩
  all_goals exact ⟨_, rfl⟩

/-- A step is idle on an empty queue and otherwise runs the front command (log entry 3). -/
theorem step_cases {s t : State} (h : step s = .next t) :
    (s.pending = [] ∧ t = s) ∨ ∃ c rest, s.pending = c :: rest ∧ exec c { s with pending := rest } = .next t := by
  unfold step at h
  split at h
  · next hp => cases h; exact .inl ⟨hp, rfl⟩
  · next c rest hp => exact .inr ⟨c, rest, hp, h⟩

end Sys2Proof.Machine

/-! SUPPORT. The Management Engine: what the execution of a request leaves of the node, how long its reply is, and the single
changes out of which taking, arrival and delivery are made (R133 to R145). -/

namespace Sys2Proof.Machine

set_option Elab.async false

/-! ### What the execution of a request leaves (R138) -/

/-- The node after the execution of a request in `s`, one case for each change that an operation makes. -/
inductive Executed (s : State) : State → Prop
  | unchanged : Executed s s
  | addressed (a : Octet) (h : 1 ≤ a.toNat ∧ a.toNat ≤ 62) :
    Executed s { s with engine := { s.engine with address := some (stationValue a) } }
  | settingsApplied (os : List Octet) (n : NodeSettings) (h : nodeSettingsOf os = some n) :
    Executed s (State.applySettings s n)
  | shadowWritten (first : Nat) (entries : List Entry) : Executed s (State.writeShadow s first entries)
  | activeCopied :
    Executed s { s with mapStore := MapStore.setShadow s.mapStore (MapStore.activeBank s.mapStore) .checked }
  | shadowMoved (st : ShadowState)
    (h : st = .editable ∨ s.mapStore.shadow ≠ .editable ∨ Bank.firstConflict (MapStore.shadowBank s.mapStore) = none) :
    Executed s { s with mapStore := { s.mapStore with shadow := st } }
  | watchWritten (os : List Octet) (i : WatchId) (u : WatchSetup) (h : watchSetupOf os = some u) :
    Executed s (State.writeWatch s i u)
  | eventsTested : Executed s (State.testEvents s)
  | eventSetupWritten (os : List Octet) (m : OrderMode) :
    Executed s (State.testEvents { s with events := EventUnit.withSetup s.events os m })
  | classDiscarded (c : ClassId) (n : Nat) :
    Executed s (State.testEvents { s with events := EventUnit.discard s.events c n })
  | countersCleared : Executed s { s with counters := countersHardware }
  | resetNoted (p : PendingReset) : Executed s { s with engine := { s.engine with resetPending := some p } }

/-- The execution of a request of any operation and any parameters is one of the cases of `Executed`, and its reply carries at
most 55 octets behind the code (R140). -/
structure Answer.Fits (a : Answer) (s : State) : Prop where
  executed : Executed s a.after
  short : a.contents.length ≤ 55

theorem Answer.refuse_fits (s : State) (k : ReplyCode) : (Answer.refuse s k).Fits s := ⟨.unchanged, by simp [Answer.refuse]⟩

theorem EventRecord.octets_length (r : EventRecord) : r.octets.length = 8 := by
  simp [EventRecord.octets, octets16, octets24]

theorem recordOctets_length (rs : List EventRecord) : (rs.flatMap EventRecord.octets).length = 8 * rs.length := by
  induction rs with
  | nil => rfl
  | cons r rs ih => rw [List.flatMap_cons, List.length_append, EventRecord.octets_length, ih, List.length_cons]; omega

theorem Entry.octets_length (e : Entry) : e.octets.length = 2 := rfl

theorem entryOctets_length (es : List Entry) : (es.flatMap Entry.octets).length = 2 * es.length := by
  induction es with
  | nil => rfl
  | cons e es ih => rw [List.flatMap_cons, List.length_append, Entry.octets_length, ih, List.length_cons]; omega

theorem State.statusOctets_length (s : State) : (State.statusOctets s).length = 34 := by
  simp [State.statusOctets, octets16]

theorem EventUnit.setupOctets_length (ev : EventUnit) : (EventUnit.setupOctets ev).length = 24 := by
  simp [EventUnit.setupOctets]

theorem WatchSetup.octets_length (u : WatchSetup) : u.octets.length = 12 := by
  simp [WatchSetup.octets, octets16, octets24]

theorem Watch.octets_length (w : Watch) : w.octets.length = 23 := by
  simp [Watch.octets, octets16, octets24, WatchSetup.octets_length]

theorem Bank.readOctets_length (b : Bank) (first count : Nat) : (Bank.readOctets b first count).length ≤ 2 * count := by
  rw [Bank.readOctets, entryOctets_length, List.length_take]
  omega

theorem counterOctets_length (cs : Counters) : (cs.toList.flatMap octets16).length = 22 := by
  simp [List.length_flatMap, octets16]

theorem EventUnit.classOctets_length (ev : EventUnit) (c : ClassId) : (EventUnit.classOctets ev c).length ≤ 37 := by
  simp only [EventUnit.classOctets, List.length_append, recordOctets_length, List.length_cons, List.length_nil,
    List.length_take]
  omega

section
variable (s : State) (params : List Octet) (r : Request)

theorem answerIdentify_fits : (answerIdentify params s).Fits s := by
  unfold answerIdentify
  split
  · exact ⟨.unchanged, by simp [octets16]⟩
  · exact Answer.refuse_fits s _

theorem answerAssignAddress_fits : (answerAssignAddress params s).Fits s := by
  unfold answerAssignAddress
  split
  · next a =>
    split
    · next h => exact ⟨.addressed a h, by simp⟩
    · exact Answer.refuse_fits s _
  · exact Answer.refuse_fits s _

theorem answerReadStatus_fits : (answerReadStatus params s).Fits s := by
  unfold answerReadStatus
  split
  · exact ⟨.unchanged, by simp [State.statusOctets_length]⟩
  · exact Answer.refuse_fits s _

theorem answerWriteNodeSetup_fits : (answerWriteNodeSetup params s).Fits s := by
  unfold answerWriteNodeSetup
  split
  · split
    · next n hn => exact ⟨.settingsApplied params n hn, by simp [State.settingOctets, octets24, octets16]⟩
    · exact Answer.refuse_fits s _
  · exact Answer.refuse_fits s _

theorem answerWriteMap_fits : (answerWriteMap params s).Fits s := by
  unfold answerWriteMap
  split
  · split
    · split
      · split
        · split
          · exact Answer.refuse_fits s _
          all_goals exact ⟨.shadowWritten _ _, by simp⟩
        · exact Answer.refuse_fits s _
      · exact Answer.refuse_fits s _
    · exact Answer.refuse_fits s _
  · exact Answer.refuse_fits s _

theorem answerReadMap_fits : (answerReadMap params s).Fits s := by
  unfold answerReadMap
  split
  · next role first count =>
    split
    · next letter _ =>
      split
      · next h =>
        have := Bank.readOctets_length (MapStore.bank s.mapStore letter) first.toNat count.toNat
        exact ⟨.unchanged, by simp only [List.length_append, List.length_cons, List.length_nil]; omega⟩
      · exact Answer.refuse_fits s _
    · exact Answer.refuse_fits s _
  · exact Answer.refuse_fits s _

theorem answerCopyActive_fits : (answerCopyActive params s).Fits s := by
  unfold answerCopyActive
  split
  · split
    · exact Answer.refuse_fits s _
    all_goals exact ⟨.activeCopied, by simp⟩
  · exact Answer.refuse_fits s _

theorem answerCheckMap_fits : (answerCheckMap params s).Fits s := by
  unfold answerCheckMap
  split
  · split
    · exact Answer.refuse_fits s _
    all_goals
      split
      · next hfree => exact ⟨.shadowMoved .checked (.inr (.inr hfree)), by simp⟩
      · exact ⟨.shadowMoved .editable (.inl rfl), by
          simp only [Bank.conflictOctets, List.length_cons, List.length_map, List.length_take]; omega⟩
  · exact Answer.refuse_fits s _

theorem answerScheduleSwitch_fits : (answerScheduleSwitch r s).Fits s := by
  unfold answerScheduleSwitch
  split
  · split
    · next t _ =>
      split
      · next hshadow =>
        split
        · exact Answer.refuse_fits s _
        · split
          · exact ⟨.shadowMoved (.pending t) (.inr (.inl (by rw [hshadow]; exact nofun))), by simp [octets16]⟩
          · exact ⟨.unchanged, by simp [octets16]⟩
      all_goals exact ⟨.unchanged, by simp [octets16]⟩
    · exact Answer.refuse_fits s _
  · exact Answer.refuse_fits s _

theorem answerCancelSwitch_fits : (answerCancelSwitch params s).Fits s := by
  unfold answerCancelSwitch
  split
  · split
    · next hshadow => exact ⟨.shadowMoved .checked (.inr (.inl (by rw [hshadow]; exact nofun))), by simp [octets16]⟩
    all_goals exact ⟨.unchanged, by simp⟩
  · exact Answer.refuse_fits s _

theorem answerWriteWatch_fits : (answerWriteWatch params s).Fits s := by
  unfold answerWriteWatch
  split
  · split
    · split
      · split
        · next u hu => exact ⟨.watchWritten _ _ u hu, by simp⟩
        · exact Answer.refuse_fits s _
      · exact Answer.refuse_fits s _
    · exact Answer.refuse_fits s _
  · exact Answer.refuse_fits s _

theorem answerReadWatch_fits : (answerReadWatch params s).Fits s := by
  unfold answerReadWatch
  split
  · split
    · exact ⟨.unchanged, by simp [Watch.octets_length]⟩
    · exact Answer.refuse_fits s _
  · exact Answer.refuse_fits s _

theorem answerWriteEventSetup_fits : (answerWriteEventSetup params s).Fits s := by
  unfold answerWriteEventSetup
  split
  · split
    · exact ⟨.eventSetupWritten _ _, by simp [EventUnit.setupOctets_length]⟩
    · exact Answer.refuse_fits s _
  · exact Answer.refuse_fits s _

theorem answerReadClass_fits : (answerReadClass params s).Fits s := by
  unfold answerReadClass
  split
  · split
    · exact ⟨.eventsTested, (EventUnit.classOctets_length _ _).trans (by decide)⟩
    · exact Answer.refuse_fits s _
  · exact Answer.refuse_fits s _

theorem answerDiscardClass_fits : (answerDiscardClass params s).Fits s := by
  unfold answerDiscardClass
  split
  · split
    · exact ⟨.classDiscarded _ _, by simp⟩
    · exact Answer.refuse_fits s _
  · exact Answer.refuse_fits s _

theorem answerReadCounters_fits : (answerReadCounters params s).Fits s := by
  unfold answerReadCounters
  split
  · refine ⟨?_, by rw [counterOctets_length]; decide⟩
    split
    · exact .countersCleared
    · exact .unchanged
  · exact Answer.refuse_fits s _

theorem answerResetNode_fits : (answerResetNode r s).Fits s := by
  unfold answerResetNode
  split
  · split
    · exact ⟨.resetNoted _, by simp⟩
    · exact Answer.refuse_fits s _
  · exact Answer.refuse_fits s _

theorem answer_fits : (answer r s).Fits s := by
  unfold answer
  split
  · exact Answer.refuse_fits s _
  · exact answerIdentify_fits ..
  · exact answerAssignAddress_fits ..
  · exact answerReadStatus_fits ..
  · exact answerWriteNodeSetup_fits ..
  · exact answerWriteMap_fits ..
  · exact answerReadMap_fits ..
  · exact answerCopyActive_fits ..
  · exact answerCheckMap_fits ..
  · exact answerScheduleSwitch_fits ..
  · exact answerCancelSwitch_fits ..
  · exact answerWriteWatch_fits ..
  · exact answerReadWatch_fits ..
  · exact answerWriteEventSetup_fits ..
  · exact answerReadClass_fits ..
  · exact answerDiscardClass_fits ..
  · exact answerReadCounters_fits ..
  · exact answerResetNode_fits ..

end

/-- No operation touches the queues and the caches of the engine (R138). -/
theorem Executed.engine {s t : State} (h : Executed s t) :
    t.engine = { s.engine with address := t.engine.address, resetPending := t.engine.resetPending } := by
  cases h <;> rfl

theorem Executed.replies {s t : State} (h : Executed s t) : t.engine.replies = s.engine.replies := by
  rw [h.engine]

/-! ### The single changes of taking, arrival and delivery (R133 to R143) -/

/-- The two counters of slips (R176). -/
def CounterName.isSlip : CounterName → Bool
  | .dropSlips => true
  | .addSlips => true
  | _ => false

/-- One change that the handling of requests makes to the node. -/
inductive RequestOp (s : State) : State → Prop
  | executed (t : State) (h : Executed s t) : RequestOp s t
  | counted (k : CounterName) (h : CounterName.isSlip k = false) : RequestOp s (State.count s k)
  | posted (k : EventKind) (src : Option WatchId) (val : Option Sample) : RequestOp s (State.post s k src val)
  | dequeued (r : Request) (rest : List Request) (h : s.engine.requests = r :: rest) :
    RequestOp s { s with engine := { s.engine with requests := rest } }
  | replayed (p : Packet) (hp : s.engine.replyCache = some p) (hl : s.engine.replies.length < 4) :
    RequestOp s (State.answerFromCache s p)
  | replied (p : Packet) (isReset : Bool) (hp : p.params.length ≤ 56) (hl : s.engine.replies.length < 4) :
    RequestOp s (State.appendReply s p isReset)
  | sequenceCached (q : Octet) : RequestOp s { s with engine := { s.engine with broadcastCache := some q } }
  | told : RequestOp s { s with events := EventUnit.requestTaken s.engine.address s.events }
  | joined (r : Request) (hd : Engine.holdsDuplicate s.engine r = false) (hl : s.engine.requests.length ≤ 3) :
    RequestOp s (State.joined s r)
  | numbered : RequestOp s (State.numbered s)

/-- A run of single changes of the handling of requests. -/
abbrev RequestOps : State → State → Prop := Relation.ReflTransGen RequestOp

/-- A property that every single change keeps is kept by a run of them. -/
theorem kept_of_ops {R : State → State → Prop} {P : State → Prop} {s t : State} (h : Relation.ReflTransGen R s t)
    (keep : ∀ u v, R u v → P u → P v) (hs : P s) : P t := by
  induction h with
  | refl => exact hs
  | tail _ hop ih => exact keep _ _ hop ih

theorem State.replied_ops (s : State) (r : Request) (hl : s.engine.replies.length < 4) :
    RequestOps s (State.replied r (answer r s)) := by
  have ⟨hx, hshort⟩ := answer_fits s r
  refine .tail (.single (.executed _ hx)) (.replied _ _ ?_ (by rw [hx.replies]; exact hl))
  show (answer r s).contents.length + 1 ≤ 56
  omega

theorem State.handleAddressed_ops (s : State) (r : Request) (hl : s.engine.replies.length < 4) :
    RequestOps s (State.handleAddressed s r) := by
  unfold State.handleAddressed
  split
  · next p hp =>
    split
    · exact .single (.replayed p hp hl)
    · exact State.replied_ops s r hl
  · exact State.replied_ops s r hl

theorem State.recordRefusal_ops (s : State) (r : Request) (k : ReplyCode) : RequestOps s (State.recordRefusal s r k) := by
  unfold State.recordRefusal
  split
  · exact .single (.posted _ _ _)
  · exact .refl

theorem State.handleBroadcast_ops (s : State) (r : Request) : RequestOps s (State.handleBroadcast s r) := by
  unfold State.handleBroadcast
  split
  · exact .refl
  · exact .trans (.tail (.single (.sequenceCached _)) (.executed _ (answer_fits _ r).executed))
      (State.recordRefusal_ops _ _ _)

theorem State.handle_ops (s : State) (r : Request) (hl : r.cls = .addressed → s.engine.replies.length < 4) :
    RequestOps s (State.handle s r) := by
  unfold State.handle
  refine .tail ?_ .told
  split
  · next hc => exact State.handleAddressed_ops s r (hl hc)
  · exact State.handleBroadcast_ops s r

/-- What the taking condition says (R136). -/
theorem Engine.mayTake_iff (e : Engine) (r : Request) :
    Engine.mayTake e r = true ↔ e.resetPending = none ∧ (r.cls = .addressed → e.replies.length < 4) := by
  unfold Engine.mayTake
  cases r.cls <;> simp

theorem State.take_ops (s : State) : RequestOps s (State.take s) := by
  unfold State.take
  split
  · next r rest hq =>
    split
    · next hm => exact .trans (.single (.dequeued r rest hq)) (State.handle_ops _ r ((Engine.mayTake_iff _ _).1 hm).2)
    · exact .refl
  · exact .refl

theorem State.arrive_ops (s : State) (r : Request) : RequestOps s (State.arrive s r) := by
  rcases State.arrive_eq s r with ⟨-, he⟩ | ⟨-, hd, ⟨-, he⟩ | ⟨hl, he⟩⟩
  · rw [he]
  · rw [he]; exact .tail (.single (.counted _ rfl)) (.posted _ _ _)
  · rw [he]; exact .trans (.single (.joined r hd hl)) (State.take_ops _)

theorem State.numberUsed_ops (s : State) (form : DestinationForm) : RequestOps s (State.numberUsed s form) := by
  cases form
  · exact .refl
  · exact .refl
  · exact .single .numbered

theorem State.deliver_ops (s : State) (d : Delivery) (op : Operation) (params : List Octet) :
    RequestOps s (State.deliver s d op params) := by
  unfold State.deliver
  split
  · exact .refl
  · split
    · exact .refl
    · split
      · exact .single (.counted _ rfl)
      · exact .trans (State.numberUsed_ops s _) (State.arrive_ops _ _)

end Sys2Proof.Machine

/-! SUPPORT. The receive side and the hand-on: the single changes out of which the taking of a classified frame by the Map
Store, the Watch Unit and the Service Channel Unit is made (R28, R110 to R121). -/

namespace Sys2Proof.Machine

set_option Elab.async false

/-! ### The octets of a segment (R109) -/

/-- A segment that is read has one to three octets, but for IDLE and ABORT, which have none. -/
theorem Segment.read_octets {g : Segment} {k : SegmentKind} {octets : List Octet} (h : Segment.read g = some (k, octets)) :
    octets.length ≤ 3 ∧ (k ≠ .idle → k ≠ .abort → 1 ≤ octets.length) ∧ (k = .idle ∨ k = .abort → octets = []) := by
  unfold Segment.read at h
  split at h
  · cases h
  · next k' _ =>
    split at h
    · next ha =>
      cases h
      have hlen : ([g.data1, g.data2, g.data3].take (Segment.count g)).length = min (Segment.count g) 3 := by
        simp [List.length_take]
      refine ⟨by omega, fun hi hb => ?_, fun hk => ?_⟩
      · have : 1 ≤ Segment.count g := by
          cases k <;> first | exact absurd rfl hi | exact absurd rfl hb | simpa [SegmentKind.allows] using ha
        omega
      · have : Segment.count g = 0 := by
          rcases hk with rfl | rfl <;> simpa [SegmentKind.allows] using ha
        rw [this, List.take_zero]
    · cases h

/-! ### The service channel between two receive states -/

/-- A change of the receive state that begins and ends no filling of the transit queue. -/
theorem ServiceChannel.receiving_sound (c : ServiceChannel) (r : Receiving) (h : ServiceChannel.Sound c)
    (hf : ServiceChannel.filling c = false) (hr : ServiceChannel.filling { c with receiving := r } = false)
    (ha : (Receiving.assembly r).length ≤ 64) : ServiceChannel.Sound { c with receiving := r } := by
  obtain ⟨htotal, -, hpackets, hmarks, hnewest, hrest⟩ := h
  exact ⟨htotal, ha, hpackets, hmarks, by rw [hr, ← hf]; exact hnewest, hrest⟩

/-- The newest packet of a queue, if there is one, holds an octet. -/
def newestHolds (q : List TransitPacket) : Prop := ∀ front p, q = front ++ [p] → p.held ≠ []

theorem newestHolds_append (q : List TransitPacket) (p : TransitPacket) : newestHolds (q ++ [p]) ↔ p.held ≠ [] := by
  refine ⟨fun h => h q p rfl, fun h front p' he => ?_⟩
  rwa [← List.cons.inj (List.append_inj' he rfl).2 |>.1]

/-- Octets that enter the newest packet leave it with an octet (R120). -/
theorem newestHolds_grown (q : List TransitPacket) {octets : List Octet} (ho : octets ≠ []) :
    newestHolds (changeNewest q (TransitPacket.grown octets)) := by
  rcases List.eq_nil_or_concat q with rfl | ⟨front, p, rfl⟩
  · intro front p he
    simp at he
  · rw [List.concat_eq_append, changeNewest_append]
    exact (newestHolds_append _ _).2 (by simp [ho])

/-- The newest packet, which holds an octet, is complete (R119). -/
theorem ServiceChannel.completed_sound (c : ServiceChannel) (h : ServiceChannel.Sound c)
    (hf : ServiceChannel.filling c = true) (hh : newestHolds c.transit) :
    ServiceChannel.Sound { c with receiving := .nothing, transit := changeNewest c.transit TransitPacket.completed } := by
  obtain ⟨q, p, hq, -⟩ := ServiceChannel.newest_of_filling c h hf
  have hheld : p.held ≠ [] := hh q p hq
  rw [hq, changeNewest_append]
  refine ServiceChannel.replaceNewest_sound c q p { p with mark := .complete } .nothing h hq ?_ rfl ?_ (Nat.zero_le _) rfl
  · simp [TransitPacket.sound, hheld]
  · have := h.1
    rw [hq] at this
    simpa [transitTotal_append] using this

/-- The newest packet is the copy of a broadcast that was delivered (R127). -/
theorem ServiceChannel.reporting_sound (c : ServiceChannel) (n m : Nat) (h : ServiceChannel.Sound c) :
    ServiceChannel.Sound
      { c with nextRequest := m, transit := changeNewest c.transit (TransitPacket.reporting n) } := by
  rcases List.eq_nil_or_concat c.transit with hq | ⟨q, p, hq⟩
  · rw [hq, changeNewest_nil, ← hq]; exact h
  · rw [List.concat_eq_append] at hq
    obtain ⟨htotal, hassembly, hpackets, -, hnewest, -⟩ := id h
    rw [hq] at htotal hpackets hnewest
    rw [hq, changeNewest_append]
    refine ServiceChannel.replaceNewest_sound c q p { p with request := some n } c.receiving h hq ?_ rfl ?_ hassembly ?_
    · have : TransitPacket.sound p = true := by
        simp only [List.all_append, List.all_cons, List.all_nil, Bool.and_true, Bool.and_eq_true] at hpackets
        exact hpackets.2
      exact this
    · simpa [transitTotal_append] using htotal
    · simpa [ServiceChannel.filling] using hnewest

/-! ### The single changes of the receive side (R110 to R121) -/

/-- One change that a segment makes to the node; a new receive state and queue are sound where those before them are. -/
inductive ReceiveOp (s : State) : State → Prop
  | request (t : State) (h : RequestOp s t) : ReceiveOp s t
  | drawn : ReceiveOp s (State.draw s)
  | stored (r : Receiving) (q : List TransitPacket)
    (h : ServiceChannel.Sound s.service → ServiceChannel.Sound { s.service with receiving := r, transit := q }) :
    ReceiveOp s (State.withReceive s r q)
  | acked (operation sequence : Octet) :
    ReceiveOp s { s with events := EventUnit.takeAck s.engine.address operation sequence s.events }
  | copyDelivered :
    ReceiveOp s { s with service := { s.service with
      nextRequest := s.service.nextRequest + 1
      transit := changeNewest s.service.transit (TransitPacket.reporting s.service.nextRequest) } }

abbrev ReceiveOps : State → State → Prop := Relation.ReflTransGen ReceiveOp

theorem RequestOps.receive {s t : State} (h : RequestOps s t) : ReceiveOps s t :=
  Relation.ReflTransGen.mono (fun _ v hop => ReceiveOp.request v hop) _ _ h

theorem ReceiveOp.counted {s : State} (k : CounterName) (h : CounterName.isSlip k = false) :
    ReceiveOp s (State.count s k) := .request _ (.counted k h)

theorem State.abortReceive_eq (s : State) :
    State.abortReceive s = s ∨
      ∃ q, State.abortReceive s = State.withReceive s .nothing q := by
  unfold State.abortReceive
  split
  · exact .inl rfl
  all_goals exact .inr ⟨_, rfl⟩

theorem State.abortReceive_ops (s : State) : ReceiveOps s (State.abortReceive s) := by
  obtain he | ⟨q, he⟩ := State.abortReceive_eq s
  · rw [he]
  · have hsound := fun h => (State.abortReceive_sound s h).1
    rw [he] at hsound ⊢
    exact .single (.stored _ _ hsound)

theorem State.abortCounted_ops (s : State) : ReceiveOps s (State.abortCounted s) := by
  unfold State.abortCounted
  split
  · exact .tail (State.abortReceive_ops s) (.counted _ rfl)
  · exact .refl

theorem State.abortCounted_receiving (s : State) : (State.abortCounted s).service.receiving = .nothing := by
  rw [State.abortCounted_service, State.abortReceive_receiving]

theorem State.transitOverflow_ops (s : State) : ReceiveOps s (State.transitOverflow s) :=
  .tail (.tail (State.abortReceive_ops s) (.counted _ rfl)) (.request _ (.posted _ _ _))

theorem State.transitOverflow_receiving (s : State) : (State.transitOverflow s).service.receiving = .nothing :=
  State.abortReceive_receiving s

theorem filling_of_nothing {c : ServiceChannel} (h : c.receiving = .nothing) : ServiceChannel.filling c = false := by
  simp [ServiceChannel.filling, h]

theorem State.takeFirst_ops (s : State) (octets : List Octet) (hn : s.service.receiving = .nothing)
    (ho : 1 ≤ octets.length ∧ octets.length ≤ 3) : ReceiveOps s (State.takeFirst s octets) := by
  have hne : octets ≠ [] := List.length_pos_iff.1 ho.1
  have hfill := filling_of_nothing hn
  have hshort : octets.length ≤ 64 := by omega
  unfold State.takeFirst
  split
  · exact .single (.stored _ _ fun h => ServiceChannel.receiving_sound _ _ h hfill rfl hshort)
  · split
    · next hfit => exact .single (.stored _ _ fun h => ServiceChannel.open_sound _ _ _ h hfill hne hfit hshort rfl)
    · exact State.transitOverflow_ops s
  · split
    · next hfit => exact .single (.stored _ _ fun h => ServiceChannel.open_sound _ _ _ h hfill hne hfit (Nat.zero_le _) rfl)
    · exact State.transitOverflow_ops s

theorem State.storeTransit_ops (s : State) (r : Receiving) (octets : List Octet)
    (hf : ServiceChannel.filling s.service = true) (hr : ServiceChannel.filling { s.service with receiving := r } = true)
    (ha : (Receiving.assembly r).length ≤ 64) : ReceiveOps s (State.storeTransit s r octets) := by
  have hsound := fun h => State.storeTransit_sound s r octets h hf hr ha
  unfold State.storeTransit at hsound ⊢
  split at hsound
  · next hfit => rw [if_pos hfit]; exact .single (.stored _ _ hsound)
  · next hfit => rw [if_neg hfit]; exact State.transitOverflow_ops s

theorem State.takeMore_ops (s : State) (octets : List Octet) : ReceiveOps s (State.takeMore s octets) := by
  unfold State.takeMore
  split
  · exact .refl
  · next a hr =>
    have hfill : ServiceChannel.filling s.service = false := by simp [ServiceChannel.filling, hr]
    split
    · exact .tail (.single (.stored _ _ fun h => ServiceChannel.receiving_sound _ _ h hfill rfl (Nat.zero_le _))) (.counted _ rfl)
    · next hlen =>
      refine .single (.stored _ _ fun h => ServiceChannel.receiving_sound _ _ h hfill rfl ?_)
      rw [Receiving.assembly, List.length_append]
      omega
  · next hr => exact State.storeTransit_ops s _ _ (by simp [ServiceChannel.filling, hr]) rfl (Nat.zero_le _)
  · next a hr =>
    have hfill : ServiceChannel.filling s.service = true := by simp [ServiceChannel.filling, hr]
    split
    · split
      · exact .trans (.tail (.single (.counted _ rfl)) .drawn) (State.storeTransit_ops _ _ _ hfill rfl (Nat.zero_le _))
      · exact .trans (.single .drawn) (State.transitOverflow_ops _)
    · next hlen =>
      refine State.storeTransit_ops s _ _ hfill rfl ?_
      rw [Receiving.assembly, List.length_append]
      omega

/-- While a packet that a segment has reached is being filled, the newest packet of the queue holds an octet. -/
def State.filledHolds (s : State) : Prop := ServiceChannel.filling s.service = true → newestHolds s.service.transit

theorem State.filledHolds_of_nothing {s : State} (h : s.service.receiving = .nothing) : State.filledHolds s :=
  fun hf => by rw [filling_of_nothing h] at hf; cases hf

theorem State.takeFirst_filledHolds (s : State) {octets : List Octet} (ho : octets ≠ []) :
    State.filledHolds (State.takeFirst s octets) := by
  unfold State.takeFirst
  split
  · exact fun hf => nomatch hf
  all_goals
    split
    · exact fun _ => (newestHolds_append _ _).2 ho
    · exact State.filledHolds_of_nothing (State.transitOverflow_receiving s)

theorem State.storeTransit_filledHolds (s : State) (r : Receiving) {octets : List Octet} (ho : octets ≠ []) :
    State.filledHolds (State.storeTransit s r octets) := by
  unfold State.storeTransit
  split
  · exact fun _ => newestHolds_grown _ ho
  · exact State.filledHolds_of_nothing (State.transitOverflow_receiving s)

theorem State.takeMore_filledHolds (s : State) {octets : List Octet} (ho : octets ≠ []) :
    State.filledHolds (State.takeMore s octets) := by
  unfold State.takeMore
  split
  · next hr => exact State.filledHolds_of_nothing hr
  · split
    · exact fun hf => nomatch hf
    · exact fun hf => nomatch hf
  · exact State.storeTransit_filledHolds s _ ho
  · split
    · split
      · exact State.storeTransit_filledHolds _ _ ho
      · exact State.filledHolds_of_nothing (State.transitOverflow_receiving _)
    · exact State.storeTransit_filledHolds s _ ho

theorem State.deliverConsumed_ops (s : State) (a : List Octet) (rt : Bool) :
    ReceiveOps s (State.deliverConsumed s a rt) := by
  unfold State.deliverConsumed
  split
  · exact .single (.counted _ rfl)
  · split
    · exact (State.arrive_ops _ _).receive
    · exact .single (.acked _ _)
    all_goals exact .refl

theorem State.deliverCopy_ops (s : State) (a : List Octet) (rt : Bool) : ReceiveOps s (State.deliverCopy s a rt) := by
  unfold State.deliverCopy
  split
  · exact .single (.counted _ rfl)
  · split
    · exact .trans (.single .copyDelivered) (State.arrive_ops _ _).receive
    all_goals exact .refl

theorem State.completePacket_ops (s : State) (rt : Bool) (h : State.filledHolds s) :
    ReceiveOps s (State.completePacket s rt) := by
  unfold State.completePacket
  split
  · exact .refl
  · next a hr =>
    have hfill : ServiceChannel.filling s.service = false := by simp [ServiceChannel.filling, hr]
    exact .trans (.single (.stored _ _ fun hs => ServiceChannel.receiving_sound _ _ hs hfill rfl (Nat.zero_le _)))
      (State.deliverConsumed_ops _ _ _)
  · next hr =>
    have hfill : ServiceChannel.filling s.service = true := by simp [ServiceChannel.filling, hr]
    exact .single (.stored _ _ fun hs => ServiceChannel.completed_sound _ hs hfill (h hfill))
  · next a hr =>
    have hfill : ServiceChannel.filling s.service = true := by simp [ServiceChannel.filling, hr]
    exact .trans (.single (.stored _ _ fun hs => ServiceChannel.completed_sound _ hs hfill (h hfill)))
      (State.deliverCopy_ops _ _ _)

theorem State.receiveSegment_ops (s : State) (g : Segment) (rt : Bool) : ReceiveOps s (State.receiveSegment s g rt) := by
  unfold State.receiveSegment
  split
  · exact State.abortCounted_ops s
  · exact .refl
  · next octets hread =>
    have ⟨hle, hge, _⟩ := Segment.read_octets hread
    exact .trans (State.abortCounted_ops s)
      (State.takeFirst_ops _ octets (State.abortCounted_receiving s) ⟨hge nofun nofun, hle⟩)
  · exact State.takeMore_ops s _
  · next octets hread =>
    have hne := List.length_pos_iff.1 ((Segment.read_octets hread).2.1 nofun nofun)
    exact .trans (State.takeMore_ops s octets) (State.completePacket_ops _ rt (State.takeMore_filledHolds s hne))
  · next octets hread =>
    have ⟨hle, hge, _⟩ := Segment.read_octets hread
    have hlen := hge nofun nofun
    exact .trans (State.abortCounted_ops s)
      (.trans (State.takeFirst_ops _ octets (State.abortCounted_receiving s) ⟨hlen, hle⟩)
        (State.completePacket_ops _ rt (State.takeFirst_filledHolds _ (List.length_pos_iff.1 hlen))))
  · exact State.abortReceive_ops s

/-! ### The hand-on (R28) -/

/-- One change that a classified frame, of ring time `rt`, makes to the node as the three blocks take it. -/
inductive HandOnOp (rt : Bool) (s : State) : State → Prop
  | receive (t : State) (h : ReceiveOp s t) : HandOnOp rt s t
  | fired : HandOnOp rt s (State.fireSwitch rt s)
  | evaluated (copied : Bool) (payload : Payload) (start : Bool) (i : WatchId) :
    HandOnOp rt s (State.evaluateWatch copied payload start s i)

abbrev HandOnOps (rt : Bool) : State → State → Prop := Relation.ReflTransGen (HandOnOp rt)

theorem ReceiveOps.handOn {rt : Bool} {s t : State} (h : ReceiveOps s t) : HandOnOps rt s t :=
  Relation.ReflTransGen.mono (fun _ v hop => HandOnOp.receive v hop) _ _ h

theorem State.watchFrame_ops (copied rt : Bool) (f : Frame) (s : State) :
    HandOnOps rt s (State.watchFrame copied rt f s) := by
  unfold State.watchFrame
  split
  · unfold State.evaluateWatches
    generalize FrameNumber.isStart s.aligner.flywheel = start
    induction List.finRange 16 generalizing s with
    | nil => exact .refl
    | cons i is ih => exact .trans (.single (.evaluated copied f.payload start i)) (ih _)
  · exact .refl

theorem State.serveFrame_ops (good rt : Bool) (f : Frame) (s : State) : HandOnOps rt s (State.serveFrame good rt f s) := by
  unfold State.serveFrame
  split
  · exact (State.receiveSegment_ops s _ _).handOn
  · exact (State.abortCounted_ops s).handOn

theorem State.handOn_ops (s : State) (copied good rt : Bool) (f : Frame) :
    HandOnOps rt s (State.handOn s copied good rt f) := by
  have hdraw : HandOnOps rt s (State.draw s) := .single (.receive _ .drawn)
  have fire := fun u => Relation.ReflTransGen.single (HandOnOp.fired (rt := rt) (s := u))
  have watch := State.watchFrame_ops copied rt f
  have serve := State.serveFrame_ops good rt f
  unfold State.handOn
  simp only
  split
  · exact hdraw.trans ((fire _).trans ((watch _).trans (serve _)))
  · exact hdraw.trans ((fire _).trans ((serve _).trans (watch _)))
  · exact hdraw.trans ((watch _).trans ((fire _).trans (serve _)))
  · exact hdraw.trans ((watch _).trans ((serve _).trans (fire _)))
  · exact hdraw.trans ((serve _).trans ((fire _).trans (watch _)))
  · exact hdraw.trans ((serve _).trans ((watch _).trans (fire _)))

end Sys2Proof.Machine

/-! SUPPORT. The Event Unit beside its records: the notifier's conditions (R166) and the length of what it builds (R158), which
each of its operations keeps together with `EventUnit.Sound`. -/

namespace Sys2Proof.Machine

set_option Elab.async false

/-- The notifier's conditions at a node with address `addr` (R166). -/
def EventUnit.NotifierFits (addr : Option (BitVec 6)) (ev : EventUnit) : Prop :=
  (ev.notifier = .active → addr.isSome = true) ∧
    (ev.notifier = .quiet → (∀ c : ClassId, ev.service[c] = none) ∧ ev.slot = none ∧ ev.quietWait = [])

/-- Every notification, in service or in the slot, fits a packet (R131, R158). -/
def EventUnit.PacketsFit (ev : EventUnit) : Prop :=
  (∀ c : ClassId, ev.service[c].all (fun v => Packet.fits v.packet) = true) ∧
    ev.slot.all (fun x => Packet.fits x.2) = true

theorem State.notifierSound_iff (s : State) :
    State.NotifierSound s ↔ EventUnit.NotifierFits s.engine.address s.events := Iff.rfl

/-- A class is in service in ACTIVE alone (R166). -/
theorem EventUnit.NotifierFits.active {addr : Option (BitVec 6)} {ev : EventUnit} (h : EventUnit.NotifierFits addr ev)
    {c : ClassId} {v : InService} (hv : ev.service[c] = some v) : ev.notifier = .active := by
  cases hn : ev.notifier with
  | active => rfl
  | quiet => rw [(h.2 hn).1 c] at hv; cases hv

/-- In ACTIVE only the address counts (R166). -/
theorem EventUnit.NotifierFits.of_active {addr : Option (BitVec 6)} {ev ev' : EventUnit}
    (h : EventUnit.NotifierFits addr ev) (ha : ev.notifier = .active) (hn : ev'.notifier = .active) :
    EventUnit.NotifierFits addr ev' :=
  ⟨fun _ => h.1 ha, fun hq => nomatch hn.symm.trans hq⟩

/-- In QUIET with nothing in service, in the slot and waiting (R166). -/
theorem EventUnit.NotifierFits.of_quiet {addr : Option (BitVec 6)} {ev : EventUnit} (hn : ev.notifier = .quiet)
    (hs : ∀ c : ClassId, ev.service[c] = none) (hslot : ev.slot = none) (hw : ev.quietWait = []) :
    EventUnit.NotifierFits addr ev :=
  ⟨fun ha => (nomatch hn.symm.trans ha), fun _ => ⟨hs, hslot, hw⟩⟩

/-- The service state of one class replaced, and the slot. -/
theorem EventUnit.PacketsFit.setService {ev : EventUnit} (h : EventUnit.PacketsFit ev) (c : ClassId) (o : Option InService)
    (slot : Option (ClassId × Packet)) (ho : o.all (fun v => Packet.fits v.packet) = true)
    (hs : slot.all (fun x => Packet.fits x.2) = true) :
    EventUnit.PacketsFit { ev with service := ev.service.set c o, slot := slot } := by
  refine ⟨fun d => ?_, hs⟩
  show ((ev.service.set c o)[d]).all _ = true
  rw [Vector.set_fin]
  split
  · exact ho
  · exact h.1 d

theorem EventUnit.PacketsFit.packet {ev : EventUnit} (h : EventUnit.PacketsFit ev) {c : ClassId} {v : InService}
    (hv : ev.service[c] = some v) : Packet.fits v.packet = true := by
  have := h.1 c
  rwa [hv, Option.all_some] at this

/-- What an operation of the Event Unit keeps, at a node with address `addr`. -/
structure EventUnit.Keeps (addr : Option (BitVec 6)) (ev ev' : EventUnit) : Prop where
  sound : EventUnit.Sound ev → EventUnit.Sound ev'
  notifier : EventUnit.NotifierFits addr ev → EventUnit.NotifierFits addr ev' := by exact id
  packets : EventUnit.PacketsFit ev → EventUnit.PacketsFit ev' := by exact id

theorem EventUnit.Keeps.refl (addr : Option (BitVec 6)) (ev : EventUnit) : EventUnit.Keeps addr ev ev := { sound := id }

theorem EventUnit.Keeps.trans {addr : Option (BitVec 6)} {ev₁ ev₂ ev₃ : EventUnit} (h : EventUnit.Keeps addr ev₁ ev₂)
    (h' : EventUnit.Keeps addr ev₂ ev₃) : EventUnit.Keeps addr ev₁ ev₃ :=
  ⟨h'.sound ∘ h.sound, h'.notifier ∘ h.notifier, h'.packets ∘ h.packets⟩

/-- An operation that leaves the service states, the slot, the notifier and what waits for QUIET as they are. -/
theorem EventUnit.Keeps.of_fields {addr : Option (BitVec 6)} {ev ev' : EventUnit}
    (hsound : EventUnit.Sound ev → EventUnit.Sound ev') (hservice : ev'.service = ev.service) (hslot : ev'.slot = ev.slot)
    (hnotifier : ev'.notifier = ev.notifier) (hwait : ev'.quietWait = ev.quietWait) : EventUnit.Keeps addr ev ev' where
  sound := hsound
  notifier h := by
    unfold EventUnit.NotifierFits
    rw [hservice, hslot, hnotifier, hwait]
    exact h
  packets h := by
    unfold EventUnit.PacketsFit
    rw [hservice, hslot]
    exact h

/-! ### The operations of the Event Unit -/

/-- A record touches the free records, the queues and the lost counts alone (R154, R155). -/
theorem EventUnit.record_frame (ev : EventUnit) (sf : Superframe) (k : EventKind) (src : Option WatchId)
    (val : Option Sample) :
    EventUnit.record ev sf k src val = { ev with
      free := (EventUnit.record ev sf k src val).free
      queues := (EventUnit.record ev sf k src val).queues
      lost := (EventUnit.record ev sf k src val).lost } := by
  rcases EventUnit.record_cases ev sf k src val with ⟨-, he⟩ | ⟨-, r, -, he⟩ | ⟨-, -, -, he⟩ | ⟨-, -, -, he⟩ <;> rw [he]

section
variable (addr : Option (BitVec 6)) (ev : EventUnit)

theorem EventUnit.record_keeps (sf : Superframe) (k : EventKind) (src : Option WatchId) (val : Option Sample) :
    EventUnit.Keeps addr ev (EventUnit.record ev sf k src val) :=
  .of_fields (EventUnit.record_sound ev sf k src val) (by rw [EventUnit.record_frame]) (by rw [EventUnit.record_frame])
    (by rw [EventUnit.record_frame]) (by rw [EventUnit.record_frame])

/-- A notification of at most four records fits a packet (R158). -/
theorem EventUnit.notification_fits (a : BitVec 6) (c : ClassId) : Packet.fits (EventUnit.notification ev a c) = true := by
  have hlen : (EventUnit.notification ev a c).params.length ≤ 34 := by
    simp only [EventUnit.notification, List.length_append, recordOctets_length, List.length_take, List.length_cons,
      List.length_nil]
    omega
  exact decide_eq_true (hlen.trans (by decide))

theorem EventUnit.test_keeps : EventUnit.Keeps addr ev (EventUnit.test addr ev) where
  sound := EventUnit.test_sound addr ev
  notifier h := by
    rcases EventUnit.test_cases addr ev with he | ⟨c, v, -, -, hv, -, he⟩ | ⟨c, a, -, -, hn, -, -, he⟩ <;> rw [he]
    · exact h
    · exact h.of_active (h.active hv) (h.active hv)
    · exact h.of_active hn hn
  packets h := by
    rcases EventUnit.test_cases addr ev with he | ⟨c, v, -, -, hv, -, he⟩ | ⟨c, a, -, -, -, -, -, he⟩ <;> rw [he]
    · exact h
    · have hp := h.packet hv
      exact h.setService c _ _ hp hp
    · exact h.setService c _ _ (EventUnit.notification_fits ev a c) (EventUnit.notification_fits ev a c)

theorem EventUnit.post_keeps (sf : Superframe) (k : EventKind) (src : Option WatchId) (val : Option Sample) :
    EventUnit.Keeps addr ev (EventUnit.post sf addr k src val ev) :=
  (EventUnit.record_keeps addr ev sf k src val).trans (EventUnit.test_keeps addr _)

/-- An acknowledgement keeps a slot of another class and empties the slot of its own (R162). -/
theorem EventUnit.acknowledge_slot (c : ClassId) (v : InService) :
    (EventUnit.acknowledge ev c v).slot = none ∨ (EventUnit.acknowledge ev c v).slot = ev.slot := by
  unfold EventUnit.acknowledge
  dsimp only
  split
  · next hs =>
    split
    · exact .inl rfl
    · exact .inr hs.symm
  · exact .inl rfl

theorem EventUnit.acknowledge_keeps {c : ClassId} {v : InService} (hv : ev.service[c] = some v) :
    EventUnit.Keeps addr ev (EventUnit.acknowledge ev c v) where
  sound h := EventUnit.acknowledge_sound ev c v h hv
  notifier h := h.of_active (h.active hv) (h.active hv)
  packets h := by
    have hslot : (EventUnit.acknowledge ev c v).slot.all (fun x => Packet.fits x.2) = true := by
      obtain he | he := EventUnit.acknowledge_slot ev c v
      · rw [he]; rfl
      · rw [he]; exact h.2
    exact h.setService c none _ rfl hslot

theorem EventUnit.leaveQuiet_keeps : EventUnit.Keeps addr ev (EventUnit.leaveQuiet addr ev) where
  sound := EventUnit.leaveQuiet_sound addr ev
  notifier h := by
    unfold EventUnit.leaveQuiet
    split
    · next hq => exact ⟨fun _ => hq.2, nofun⟩
    · exact h
  packets h := by rw [EventUnit.leaveQuiet_frame]; exact h

theorem EventUnit.requestTaken_keeps : EventUnit.Keeps addr ev (EventUnit.requestTaken addr ev) :=
  (EventUnit.leaveQuiet_keeps addr ev).trans (EventUnit.test_keeps addr _)

theorem EventUnit.takeAck_keeps (o q : Octet) : EventUnit.Keeps addr ev (EventUnit.takeAck addr o q ev) := by
  unfold EventUnit.takeAck
  dsimp only
  refine .trans ?_ ((EventUnit.leaveQuiet_keeps addr _).trans (EventUnit.test_keeps addr _))
  split
  · next c v hm => exact EventUnit.acknowledge_keeps addr ev (EventUnit.ackMatch_some ev o q c v hm).1
  · exact .refl addr ev

theorem EventUnit.slotTaken_keeps : EventUnit.Keeps addr ev (EventUnit.slotTaken addr ev) :=
  .trans (ev₂ := { ev with slot := none })
    { sound := fun h => ⟨h.1, h.2.1, h.2.2.1, h.2.2.2.1, rfl⟩
      notifier := fun h => ⟨h.1, fun hq => ⟨(h.2 hq).1, rfl, (h.2 hq).2.2⟩⟩
      packets := fun h => ⟨h.1, rfl⟩ }
    (EventUnit.test_keeps addr _)

theorem EventUnit.goQuiet_keeps (sf : Superframe) : EventUnit.Keeps addr ev (EventUnit.goQuiet sf ev) :=
  .trans (ev₂ := { ev with service := Vector.replicate 8 none, slot := none, notifier := .quiet, quietWait := [] })
    { sound := fun h => ⟨h.1, fun c => by simp, h.2.2.1, h.2.2.2.1, rfl⟩
      notifier := fun _ => .of_quiet rfl (fun c => by simp) rfl rfl
      packets := fun _ => ⟨fun c => by simp, rfl⟩ }
    (EventUnit.record_keeps addr _ sf _ _ _)

theorem EventUnit.completeClass_keeps (c : ClassId) (q : Octet) :
    EventUnit.Keeps addr ev (EventUnit.completeClass ev c q) where
  sound := EventUnit.completeClass_sound ev c q
  notifier h := by
    unfold EventUnit.completeClass
    split
    · next v hv =>
      split
      · split
        · exact (EventUnit.acknowledge_keeps addr ev hv).notifier h
        · exact h.of_active (h.active hv) (h.active hv)
      · exact h
    · exact h
  packets h := by
    unfold EventUnit.completeClass
    split
    · next v hv =>
      split
      · split
        · exact (EventUnit.acknowledge_keeps addr ev hv).packets h
        · have hp := h.packet hv
          exact h.setService c _ _ hp h.2
      · exact h
    · exact h

theorem EventUnit.notificationComplete_keeps (sf : Superframe) (c : ClassId) (q : Octet) :
    EventUnit.Keeps addr ev (EventUnit.notificationComplete sf addr c q ev) := by
  unfold EventUnit.notificationComplete
  dsimp only
  refine .trans (EventUnit.completeClass_keeps addr ev c q) (.trans ?_ (EventUnit.test_keeps addr _))
  split
  · exact .refl addr _
  · exact EventUnit.goQuiet_keeps addr _ sf

theorem EventUnit.expire_keeps (sf : Superframe) (b : Bool) (c : ClassId) :
    EventUnit.Keeps addr ev (EventUnit.expire sf addr b c ev) where
  sound := EventUnit.expire_sound sf addr b c ev
  notifier h := by
    unfold EventUnit.expire
    split
    · split
      · next v hv =>
        refine (EventUnit.test_keeps addr _).notifier ?_
        split
        · exact h.of_active (h.active hv) (h.active hv)
        · split
          · exact h.of_active (h.active hv) (h.active hv)
          · exact (EventUnit.goQuiet_keeps addr ev sf).notifier h
      · exact h
    · exact h
  packets h := by
    unfold EventUnit.expire
    split
    · split
      · next v hv =>
        have hp := h.packet hv
        refine (EventUnit.test_keeps addr _).packets ?_
        split
        · exact h.setService c _ _ hp h.2
        · split
          · exact h.setService c _ _ hp h.2
          · exact (EventUnit.goQuiet_keeps addr ev sf).packets h
      · exact h
    · exact h

theorem EventUnit.lowerTimers_service (c : ClassId) :
    (EventUnit.lowerTimers ev).service[c] = ev.service[c].map fun v => { v with timer := v.timer.map (· - 1) } := by
  simp only [EventUnit.lowerTimers, Fin.getElem_fin, Vector.getElem_ofFn]
  cases ev.service[c.val] <;> rfl

theorem EventUnit.lowerTimers_keeps : EventUnit.Keeps addr ev (EventUnit.lowerTimers ev) where
  sound := EventUnit.lowerTimers_sound ev
  notifier h := ⟨h.1, fun hq => ⟨fun c => by rw [EventUnit.lowerTimers_service, (h.2 hq).1 c]; rfl, (h.2 hq).2⟩⟩
  packets h := ⟨fun c => by rw [EventUnit.lowerTimers_service, Option.all_map]; exact h.1 c, h.2⟩

theorem EventUnit.expireDue_keeps (sf : Superframe) (b : Bool) :
    EventUnit.Keeps addr ev (EventUnit.expireDue sf addr b ev) := by
  unfold EventUnit.expireDue
  generalize ev.order = classes
  induction classes generalizing ev with
  | nil => exact .refl addr ev
  | cons c classes ih => exact .trans (EventUnit.expire_keeps addr ev sf b c) (ih _)

theorem EventUnit.mark_keeps (sf : Superframe) (b early : Bool) :
    EventUnit.Keeps addr ev (EventUnit.mark sf addr b early ev) := by
  unfold EventUnit.mark
  dsimp only
  refine .trans (EventUnit.expireDue_keeps addr ev sf b) (.trans (EventUnit.lowerTimers_keeps addr _) ?_)
  split
  · exact EventUnit.expireDue_keeps addr _ sf b
  · exact .refl addr _

theorem EventUnit.discard_keeps (c : ClassId) (n : Nat) : EventUnit.Keeps addr ev (EventUnit.discard ev c n) :=
  { sound := EventUnit.discard_sound ev c n }

theorem EventUnit.withSetup_keeps (os : List Octet) (m : OrderMode) :
    EventUnit.Keeps addr ev (EventUnit.withSetup ev os m) :=
  .of_fields (EventUnit.withSetup_sound ev os m) (EventUnit.withSetup_service ..) (EventUnit.withSetup_slot ..)
    (EventUnit.withSetup_notifier ..) (EventUnit.withSetup_quietWait ..)

theorem EventUnit.cleared_keeps : EventUnit.Keeps addr ev (EventUnit.cleared ev) where
  sound _ := EventUnit.cleared_sound ev
  notifier _ := .of_quiet rfl (fun c => by simp [EventUnit.cleared]) rfl rfl
  packets _ := ⟨fun c => by simp [EventUnit.cleared], rfl⟩

theorem EventUnit.hardware_keeps : EventUnit.Keeps addr ev EventUnit.hardware where
  sound _ := EventUnit.hardware_sound
  notifier _ := .of_quiet rfl (fun c => by simp [EventUnit.hardware]) rfl rfl
  packets _ := ⟨fun c => by simp [EventUnit.hardware], rfl⟩

end

end Sys2Proof.Machine

/-! SUPPORT. What every operation of the node keeps: the invariants of Safety.lean that hold of each single operation, gathered
in one relation between the node before and after it, and the operations up to the hand-on of a classified frame. -/

namespace Sys2Proof.Machine

set_option Elab.async false

/-- The conditions of the Local Port and of both stores (R72, R75, R85). -/
def LocalPort.StoresSound (p : LocalPort) : Prop := LocalPort.Sound p ∧ Store.Sound p.drop ∧ Store.Sound p.add

/-- What an operation that takes `s` to `t` keeps of the blocks' conditions; a condition of blocks that the operation does not
touch needs no proof. -/
structure State.StaysSound (s t : State) : Prop where
  pending : t.pending = s.pending := by rfl
  map : MapStore.Sound s.mapStore → MapStore.Sound t.mapStore := by exact id
  port : LocalPort.StoresSound s.port → LocalPort.StoresSound t.port := by exact id
  watches : (∀ i : WatchId, Watch.Sound s.watches[i]) → ∀ i : WatchId, Watch.Sound t.watches[i] := by exact id
  service : ServiceChannel.Sound s.service → ServiceChannel.Sound t.service := by exact id
  events : EventUnit.Sound s.events → EventUnit.Sound t.events := by exact id
  notifier : State.NotifierSound s → State.NotifierSound t := by exact id
  engine : Engine.Sound s.engine → Engine.Sound t.engine := by exact id
  packets : State.PacketsFit s → State.PacketsFit t := by exact id
  ringOut : State.RingOutSound s → State.RingOutSound t := by exact id

/-- The same for an operation that loses no address (R150, R166). -/
structure State.Keeps (s t : State) : Prop extends State.StaysSound s t where
  address : s.engine.address ≠ none → t.engine.address ≠ none := by exact id

theorem State.StaysSound.trans {s t u : State} (h : State.StaysSound s t) (h' : State.StaysSound t u) :
    State.StaysSound s u where
  pending := h'.pending.trans h.pending
  map := h'.map ∘ h.map
  port := h'.port ∘ h.port
  watches := h'.watches ∘ h.watches
  service := h'.service ∘ h.service
  events := h'.events ∘ h.events
  notifier := h'.notifier ∘ h.notifier
  engine := h'.engine ∘ h.engine
  packets := h'.packets ∘ h.packets
  ringOut := h'.ringOut ∘ h.ringOut

theorem State.Keeps.refl (s : State) : State.Keeps s s := {}

theorem State.Keeps.trans {s t u : State} (h : State.Keeps s t) (h' : State.Keeps t u) : State.Keeps s u where
  toStaysSound := h.toStaysSound.trans h'.toStaysSound
  address := h'.address ∘ h.address

/-- A run of single changes keeps what each of them keeps. -/
theorem State.Keeps.of_ops {R : State → State → Prop} (keep : ∀ u v, R u v → State.Keeps u v) {s t : State}
    (h : Relation.ReflTransGen R s t) : State.Keeps s t :=
  kept_of_ops h (fun _ _ hop hk => hk.trans (keep _ _ hop)) (.refl s)

/-! ### Operations of one block -/

/-- The part of `State.PacketsFit` that is the packet in emission (R131). -/
def InEmission.fits : InEmission → Bool
  | .own _ p sent => Packet.fits p && sent < (Packet.octets p).length
  | _ => true

theorem State.packetsFit_iff (s : State) :
    State.PacketsFit s ↔
      ((∀ r ∈ s.engine.replies, Packet.fits r.packet = true) ∧ s.engine.replyCache.all Packet.fits = true) ∧
        EventUnit.PacketsFit s.events ∧ InEmission.fits s.service.emission = true := by
  cases he : s.service.emission <;>
    simp only [State.PacketsFit, EventUnit.PacketsFit, InEmission.fits, he, and_assoc]

/-- An operation on the Event Unit alone. -/
theorem State.Keeps.of_events {s : State} {ev : EventUnit} (h : EventUnit.Keeps s.engine.address s.events ev) :
    State.Keeps s { s with events := ev } where
  events := h.sound
  notifier := h.notifier
  packets hp := by
    rw [State.packetsFit_iff] at hp ⊢
    exact ⟨hp.1, h.packets hp.2.1, hp.2.2⟩

/-- An operation on the Map Store alone. -/
theorem State.Keeps.of_map {s : State} {m : MapStore} (h : MapStore.Sound s.mapStore → MapStore.Sound m) :
    State.Keeps s { s with mapStore := m } :=
  { map := h }

/-- An operation on the Local Port alone. -/
theorem State.Keeps.of_port {s : State} {p : LocalPort} (h : LocalPort.StoresSound s.port → LocalPort.StoresSound p) :
    State.Keeps s { s with port := p } :=
  { port := h }

/-- An operation on the aligner that leaves the position as it is or moves it within its range. -/
theorem State.Keeps.of_aligner {s : State} {a : Aligner}
    (h : inStationRange s.aligner.position = true → inStationRange a.position = true) :
    State.Keeps s { s with aligner := a } :=
  { ringOut := fun ⟨hcurrent, hcopies, hposition, hheld⟩ => ⟨hcurrent, hcopies, h hposition, hheld⟩ }

theorem State.count_keeps (s : State) (k : CounterName) : State.Keeps s (State.count s k) := {}

theorem State.draw_keeps (s : State) : State.Keeps s (State.draw s) := {}

theorem State.post_keeps (s : State) (k : EventKind) (src : Option WatchId) (val : Option Sample) :
    State.Keeps s (State.post s k src val) :=
  .of_events (EventUnit.post_keeps _ _ _ k src val)

theorem State.testEvents_keeps (s : State) : State.Keeps s (State.testEvents s) := .of_events (EventUnit.test_keeps _ _)

/-! ### The operations of the Management Engine -/

/-- A mode that is set leaves the port in the state of R87. -/
theorem LocalPort.setMode_sound (p : LocalPort) (m : LocalMode) (h : LocalPort.StoresSound p) :
    LocalPort.StoresSound (LocalPort.setMode p m) := by
  refine ⟨?_, LocalPort.setMode_stores p m h.2⟩
  unfold LocalPort.setMode
  split
  · exact h.1
  · cases m <;> simp [LocalPort.Sound, LocalMode.storeState, Store.emptied]

/-- A setup that WRITE_WATCH accepts has its limit and its debounce in their ranges (R103). -/
theorem watchSetupOf_ranges {os : List Octet} {u : WatchSetup} (h : watchSetupOf os = some u) :
    (1 ≤ u.limit ∧ u.limit ≤ 4095) ∧ (1 ≤ u.debounce ∧ u.debounce ≤ 15) := by
  unfold watchSetupOf at h
  split at h
  · split at h
    · split at h
      · dsimp only at h
        split at h
        · next hr =>
          cases h
          refine ⟨⟨hr.1, ?_⟩, hr.2, ?_⟩
          · exact Nat.lt_succ_iff.1 (BitVec.isLt _)
          · exact Nat.lt_succ_iff.1 (BitVec.isLt _)
        · cases h
      · cases h
    · cases h
  · cases h

/-- A WRITE_WATCH changes no hop of a copy that is due (R104). -/
theorem State.writeWatch_keeps (s : State) (i : WatchId) {os : List Octet} {u : WatchSetup} (h : watchSetupOf os = some u) :
    State.Keeps s (State.writeWatch s i u) where
  watches hw j := by
    show Watch.Sound (s.watches.set i (Watch.restarted u))[j]
    rw [Vector.set_fin]
    split
    · exact Watch.restarted_sound u (watchSetupOf_ranges h).1 (watchSetupOf_ranges h).2
    · exact hw j
  ringOut := fun ⟨hcurrent, hcopies, hposition, hheld⟩ => by
    refine ⟨hcurrent, ?_, hposition, fun hr => ⟨(hheld hr).1, ?_⟩⟩
    · show (s.ringOut.copies.map _).all _ = true
      rw [List.all_map]
      exact hcopies
    · show s.ringOut.copies.map _ = []
      rw [(hheld hr).2, List.map_nil]

/-- The address that ASSIGN_ADDRESS sets lies in its range (R191). -/
theorem stationValue_inRange {a : Octet} (h : 1 ≤ a.toNat ∧ a.toNat ≤ 62) :
    inStationRange (some (stationValue a)) = true := by
  have : (stationValue a).toNat = a.toNat := by
    simp only [stationValue, BitVec.extractLsb'_toNat, Nat.shiftRight_zero]
    omega
  simp only [inStationRange, Option.all_some, this, Bool.and_eq_true, decide_eq_true_eq]
  exact h

theorem Executed.keeps {s t : State} (h : Executed s t) : State.Keeps s t := by
  cases h with
  | unchanged => exact .refl s
  | addressed a ha =>
    exact
      { address := fun _ => Option.some_ne_none _
        notifier := fun ⟨_, hq⟩ => ⟨fun _ => rfl, hq⟩
        engine := fun ⟨hrequests, hreplies, hpairs, _⟩ => ⟨hrequests, hreplies, hpairs, stationValue_inRange ha⟩ }
  | settingsApplied os n _ =>
    refine { port := fun hp => ?_ }
    unfold State.applySettings
    dsimp only
    split
    · exact LocalPort.setMode_sound _ _ hp
    · exact hp
  | shadowWritten first entries => exact .of_map (MapStore.setShadow_editable_sound _ _)
  | activeCopied => exact .of_map (MapStore.copyActive_sound _)
  | shadowMoved st hst =>
    refine .of_map fun hm => ⟨hm.1, fun hne => ?_⟩
    obtain rfl | hshadow | hfree := hst
    · exact absurd rfl hne
    · exact hm.2 hshadow
    · exact (Bank.firstConflict_none _).1 hfree
  | watchWritten os i u hu => exact State.writeWatch_keeps s i hu
  | eventsTested => exact State.testEvents_keeps s
  | eventSetupWritten os m => exact .trans (.of_events (EventUnit.withSetup_keeps _ _ os m)) (State.testEvents_keeps _)
  | classDiscarded c n => exact .trans (.of_events (EventUnit.discard_keeps _ _ c n)) (State.testEvents_keeps _)
  | countersCleared => exact {}
  | resetNoted p => exact {}

/-- A reply that is built fits and finds a free entry (R136, R141). -/
theorem State.appendReply_keeps (s : State) (p : Packet) (isReset : Bool) (hp : p.params.length ≤ 56)
    (hl : s.engine.replies.length < 4) : State.Keeps s (State.appendReply s p isReset) where
  engine := fun ⟨hrequests, _, hpairs, haddress⟩ => by
    refine ⟨hrequests, ?_, hpairs, haddress⟩
    simp only [State.appendReply, List.length_append, List.length_map, List.length_singleton]
    omega
  packets hfit := by
    have hfits : Packet.fits p = true := decide_eq_true hp
    rw [State.packetsFit_iff] at hfit ⊢
    refine ⟨⟨fun r hr => ?_, hfits⟩, hfit.2⟩
    simp only [State.appendReply, List.mem_append, List.mem_map, List.mem_singleton] at hr
    obtain ⟨q, hq, rfl⟩ | rfl := hr
    · exact hfit.1.1 q hq
    · exact hfits

/-- A copy of the cached reply finds a free entry (R137). -/
theorem State.answerFromCache_keeps (s : State) {p : Packet} (hp : s.engine.replyCache = some p)
    (hl : s.engine.replies.length < 4) : State.Keeps s (State.answerFromCache s p) := by
  unfold State.answerFromCache
  split
  · exact .refl s
  · exact
      { engine := fun ⟨hrequests, _, hpairs, haddress⟩ =>
          ⟨hrequests, by simp only [List.length_append, List.length_singleton]; omega, hpairs, haddress⟩
        packets := fun hfit => by
          rw [State.packetsFit_iff] at hfit ⊢
          refine ⟨⟨fun r hr => ?_, hfit.1.2⟩, hfit.2⟩
          have hcached := hfit.1.2
          rw [hp, Option.all_some] at hcached
          obtain hr | hr := List.mem_append.1 hr
          · exact hfit.1.1 r hr
          · rw [List.mem_singleton.1 hr]
            exact hcached }

/-- A request that is no duplicate joins a queue with room (R134, R135). -/
theorem State.joined_keeps (s : State) (r : Request) (hd : Engine.holdsDuplicate s.engine r = false)
    (hl : s.engine.requests.length ≤ 3) : State.Keeps s (State.joined s r) where
  engine := fun ⟨_, hreplies, hpairs, haddress⟩ => by
    refine ⟨?_, hreplies, ?_, haddress⟩
    · rw [State.joined_requests, List.length_append, List.length_singleton]
      omega
    · rw [State.joined_requests, List.pairwise_append]
      refine ⟨hpairs, List.pairwise_singleton _ _, fun q hq r' hr' => ?_⟩
      rw [List.mem_singleton.1 hr']
      have := List.any_eq_false.1 hd q hq
      exact Bool.eq_false_iff.2 this

theorem RequestOp.keeps {s t : State} (h : RequestOp s t) : State.Keeps s t := by
  cases h with
  | executed _ hx => exact hx.keeps
  | counted k _ => exact State.count_keeps s k
  | posted k src val => exact State.post_keeps s k src val
  | dequeued r rest hq =>
    refine { engine := fun ⟨hrequests, hreplies, hpairs, haddress⟩ => ?_ }
    rw [hq] at hrequests hpairs
    exact ⟨(Nat.le_succ _).trans hrequests, hreplies, (List.pairwise_cons.1 hpairs).2, haddress⟩
  | replayed p hp hl => exact State.answerFromCache_keeps s hp hl
  | replied p isReset hp hl => exact State.appendReply_keeps s p isReset hp hl
  | sequenceCached q => exact {}
  | told => exact .of_events (EventUnit.requestTaken_keeps _ _)
  | joined r hd hl => exact State.joined_keeps s r hd hl
  | numbered => exact {}

theorem State.take_keeps (s : State) : State.Keeps s (State.take s) := .of_ops (fun _ _ => RequestOp.keeps) (State.take_ops s)

theorem State.deliver_keeps (s : State) (d : Delivery) (op : Operation) (params : List Octet) :
    State.Keeps s (State.deliver s d op params) :=
  .of_ops (fun _ _ => RequestOp.keeps) (State.deliver_ops s d op params)

/-! ### The receive side and the hand-on -/

theorem ReceiveOp.keeps {s t : State} (h : ReceiveOp s t) : State.Keeps s t := by
  cases h with
  | request _ hop => exact hop.keeps
  | drawn => exact State.draw_keeps s
  | stored r q hsound => exact { service := hsound }
  | acked o q => exact .of_events (EventUnit.takeAck_keeps _ _ o q)
  | copyDelivered => exact { service := ServiceChannel.reporting_sound _ _ _ }

theorem State.abortCounted_keeps (s : State) : State.Keeps s (State.abortCounted s) :=
  .of_ops (fun _ _ => ReceiveOp.keeps) (State.abortCounted_ops s)

theorem State.fireSwitch_keeps (rt : Bool) (s : State) : State.Keeps s (State.fireSwitch rt s) := by
  unfold State.fireSwitch
  split
  · have hfired := State.Keeps.of_map (s := s) (MapStore.fire_sound s.mapStore s.aligner.flywheel.superframe)
    dsimp only
    split
    · exact hfired.trans (State.post_keeps _ _ _ _)
    · exact hfired
  · exact .refl s

/-- The note of a status changes no hop of a copy that is due (R45). -/
theorem RingOut.noteStatus_keeps (s : State) (i : WatchId) (st : WatchStatus) :
    State.Keeps s { s with ringOut := RingOut.noteStatus s.ringOut i st } := by
  unfold RingOut.noteStatus
  split
  · next c hlast =>
    refine { ringOut := fun ⟨hcurrent, hcopies, hposition, hheld⟩ => ⟨hcurrent, ?_, hposition, fun hr => ?_⟩ }
    · obtain ⟨front, hfront⟩ := List.getLast?_eq_some_iff.1 hlast
      rw [hfront] at hcopies
      simpa [hfront] using hcopies
    · rw [(hheld hr).2] at hlast
      cases hlast
  · exact .refl s

theorem State.postWatch_keeps (s : State) (i : WatchId) (es : List (EventKind × Option Sample)) :
    State.Keeps s (State.postWatch s i es) := by
  unfold State.postWatch
  induction es generalizing s with
  | nil => exact .refl s
  | cons e es ih => exact .trans (State.post_keeps s _ _ _) (ih _)

theorem State.evaluateWatch_keeps (copied : Bool) (payload : Payload) (start : Bool) (s : State) (i : WatchId) :
    State.Keeps s (State.evaluateWatch copied payload start s i) := by
  unfold State.evaluateWatch
  dsimp only
  split
  · next he =>
    have hset : State.Keeps s { s with
        watches := s.watches.set i (Watch.evaluate s.watches[i] payload[s.watches[i].setup.slot] start).1 } := by
      refine { watches := fun hw j => ?_ }
      show Watch.Sound (s.watches.set i _)[j]
      rw [Vector.set_fin]
      split
      · exact Watch.evaluate_sound _ _ start he (hw i)
      · exact hw j
    refine .trans ?_ (State.postWatch_keeps _ i _)
    split
    · exact hset.trans (RingOut.noteStatus_keeps _ i _)
    · exact hset
  · exact .refl s

theorem HandOnOp.keeps {rt : Bool} {s t : State} (h : HandOnOp rt s t) : State.Keeps s t := by
  cases h with
  | receive _ hop => exact hop.keeps
  | fired => exact State.fireSwitch_keeps rt s
  | evaluated copied payload start i => exact State.evaluateWatch_keeps copied payload start s i

theorem State.handOn_keeps (s : State) (copied good rt : Bool) (f : Frame) :
    State.Keeps s (State.handOn s copied good rt f) :=
  .of_ops (fun _ _ => HandOnOp.keeps) (State.handOn_ops s copied good rt f)

/-! ### The aligner -/

theorem State.settleChoice_keeps (s : State) : State.Keeps s (State.settleChoice s) := by
  have hsound := State.settleChoice_sound s
  rw [State.settleChoice_frame] at hsound ⊢
  exact { service := hsound }

theorem State.stepFlywheel_keeps (s : State) : State.Keeps s (State.stepFlywheel s) := by
  refine .of_aligner fun h => ?_
  unfold Aligner.closeWindow
  split <;> exact h

/-- A hop that a frame with ring time carries teaches a position of a station (R3, R26). -/
theorem positionOfHop_inRange {hop p : BitVec 6} (h : positionOfHop hop = some p) : inStationRange (some p) = true := by
  unfold positionOfHop at h
  split at h
  · cases h
    simp only [inStationRange, Option.all_some, Bool.and_eq_true, decide_eq_true_eq, BitVec.toNat_add]
    norm_num
    omega
  · cases h

theorem State.learnPosition_keeps (s : State) (hop : BitVec 6) : State.Keeps s (State.learnPosition s hop) := by
  unfold State.learnPosition
  split
  · next p hp =>
    split
    · exact .refl s
    · exact .trans (.of_aligner fun _ => positionOfHop_inRange hp) (State.post_keeps _ _ _ _)
  · exact .refl s

theorem State.updateLastUf_keeps (s : State) (uf : Bool) : State.Keeps s (State.updateLastUf s uf) := by
  unfold State.updateLastUf
  split
  · exact .refl s
  · exact .trans (.of_aligner (a := { s.aligner with lastUf := uf }) id) (State.post_keeps _ _ _ _)

theorem State.learnFrom_keeps (s : State) (f : Frame) : State.Keeps s (State.learnFrom s f) := by
  unfold State.learnFrom
  split
  · exact State.updateLastUf_keeps s true
  · split
    · exact .trans (State.draw_keeps s) (.trans (State.learnPosition_keeps _ _) (State.updateLastUf_keeps _ _))
    · exact .trans (State.draw_keeps s) (.trans (State.updateLastUf_keeps _ _) (State.learnPosition_keeps _ _))

theorem State.takeClassified_keeps (s : State) (f : Frame) (c : FrameClass) :
    State.Keeps s (State.takeClassified s f c) := by
  unfold State.takeClassified
  split
  · unfold State.takeGood
    refine .trans (.of_aligner (a := { s.aligner with consecutiveBad := 0 }) id) (.trans ?_ (State.learnFrom_keeps _ f))
    split
    · exact State.count_keeps _ _
    · exact .refl _
  · unfold State.takeBad State.countClass
    refine .trans (.of_aligner (a := { s.aligner with
      consecutiveBad := s.aligner.consecutiveBad + 1, windowCount := s.aligner.windowCount + 1 }) id) ?_
    split
    · exact State.count_keeps _ _
    · exact .refl _

/-- The hop of a station that is not the ring master (R3). -/
theorem hopOf_ne_zero {position : Option (BitVec 6)} (h : inStationRange position = true) : hopOf position ≠ 0#6 := by
  cases position with
  | none => decide
  | some p =>
    rintro hz
    have hz : p = 0#6 := hz
    subst hz
    cases h

theorem State.queueCopy_keeps (s : State) (f : Frame) (c : FrameClass) (hr : s.resetN = true) :
    State.Keeps s (State.queueCopy s f c) := by
  refine { ringOut := fun ⟨hcurrent, hcopies, hposition, hheld⟩ => ⟨hcurrent, ?_, hposition, fun hr' => ?_⟩ }
  · show List.all (if s.ringOut.copyArriving = true then s.ringOut.copies ++ [State.copyOf s f c] else s.ringOut.copies) _ = true
    split
    · have hop : (State.copyOf s f c).hop ≠ 0#6 := hopOf_ne_zero hposition
      simpa [hop] using hcopies
    · exact hcopies
  · rw [State.queueCopy_resetN, hr] at hr'
    cases hr'

theorem State.leaveAligned_keeps (s : State) (st : AlignState) : State.Keeps s (State.leaveAligned s st) := by
  unfold State.leaveAligned
  refine .trans (t := { s with
    aligner := Aligner.countsCleared s.aligner st, ringOut := { s.ringOut with copyArriving := false } }) {} ?_
  exact .trans (State.post_keeps _ _ _ _) (.trans (State.count_keeps _ _) (State.abortCounted_keeps _))

/-- The node once a bad frame has reported a low quality, where it does (R24). -/
def State.qualityReported (s : State) : State :=
  if Aligner.reachesThreshold s.aligner then
    State.post { s with aligner := { s.aligner with windowReported := true } } .qualityLow none none
  else s

/-- A bad frame is judged in two steps: the report of a low quality and the end of alignment (R20, R24). -/
theorem State.judgeQuality_eq (s : State) :
    State.judgeQuality s =
      if 3 ≤ (State.qualityReported s).aligner.consecutiveBad ||
          (Aligner.reachesThreshold s.aligner && (State.qualityReported s).aligner.forcedRehunt) then
        State.leaveAligned (State.qualityReported s) .hunt
      else State.qualityReported s := rfl

theorem State.judgeQuality_keeps (s : State) : State.Keeps s (State.judgeQuality s) := by
  have hlow : State.Keeps s (State.qualityReported s) := by
    unfold State.qualityReported
    split
    · exact .trans (.of_aligner (a := { s.aligner with windowReported := true }) id) (State.post_keeps _ _ _ _)
    · exact .refl s
  rw [State.judgeQuality_eq]
  split
  · exact hlow.trans (State.leaveAligned_keeps _ _)
  · exact hlow

end Sys2Proof.Machine

/-! SUPPORT. What the handling of requests, the receive side and the hand-on of a frame leave as it was: the frame in emission,
the arbiter's open choice, the aligner beside its settings, and the active bank but where a swap may fall. -/

namespace Sys2Proof.Machine

set_option Elab.async false

/-- `t` is `s` after operations that leave these fields; the active bank may have changed only where `fires` holds. -/
structure State.Leaves (fires : Prop) (s t : State) : Prop where
  resetN : t.resetN = s.resetN := by rfl
  current : t.ringOut.current = s.ringOut.current := by rfl
  copyArriving : t.ringOut.copyArriving = s.ringOut.copyArriving := by rfl
  aligner : t.aligner = { s.aligner with threshold := t.aligner.threshold, forcedRehunt := t.aligner.forcedRehunt } := by rfl
  threshold : s.aligner.threshold ≤ 1023 → t.aligner.threshold ≤ 1023 := by exact id
  openChoice : t.service.openChoice = s.service.openChoice := by rfl
  bank : fires ∨
    (t.mapStore.active = s.mapStore.active ∧ MapStore.activeBank t.mapStore = MapStore.activeBank s.mapStore) := by
      exact .inr ⟨rfl, rfl⟩

variable {fires : Prop}

theorem State.Leaves.refl (s : State) : State.Leaves fires s s := {}

theorem State.Leaves.trans {s t u : State} (h : State.Leaves fires s t) (h' : State.Leaves fires t u) :
    State.Leaves fires s u where
  resetN := h'.resetN.trans h.resetN
  current := h'.current.trans h.current
  copyArriving := h'.copyArriving.trans h.copyArriving
  aligner := by rw [h'.aligner, h.aligner]
  threshold := h'.threshold ∘ h.threshold
  openChoice := h'.openChoice.trans h.openChoice
  bank := by
    obtain hf | ⟨hactive, hbank⟩ := h.bank
    · exact .inl hf
    · obtain hf | ⟨hactive', hbank'⟩ := h'.bank
      · exact .inl hf
      · exact .inr ⟨hactive'.trans hactive, hbank'.trans hbank⟩

/-- A WRITE_NODE_SETUP accepts a threshold of at most 1023 (R146). -/
theorem nodeSettingsOf_threshold {os : List Octet} {n : NodeSettings} {x : Nat} (h : nodeSettingsOf os = some n)
    (hx : n.threshold = some x) : x ≤ 1023 := by
  unfold nodeSettingsOf at h
  split at h
  · split at h
    · next hpass =>
      cases h
      simp only [Bool.and_eq_true, fieldPasses, Bool.or_eq_true, Bool.not_eq_true', decide_eq_true_eq] at hpass
      dsimp only at hx
      split at hx
      · next hselected =>
        cases hx
        exact hpass.1.1.1.resolve_left (by rw [hselected]; decide)
      · cases hx
    · cases h
  · cases h

theorem Executed.leaves {s t : State} (h : Executed s t) : State.Leaves fires s t := by
  cases h with
  | settingsApplied os n hn =>
    refine { threshold := fun hs => ?_ }
    show n.threshold.getD s.aligner.threshold ≤ 1023
    cases hx : n.threshold with
    | none => exact hs
    | some x => exact nodeSettingsOf_threshold hn hx
  | shadowWritten first entries =>
    exact { bank := .inr ⟨MapStore.setShadow_active _ _ _, MapStore.setShadow_activeBank _ _ _⟩ }
  | activeCopied => exact { bank := .inr ⟨MapStore.setShadow_active _ _ _, MapStore.setShadow_activeBank _ _ _⟩ }
  | _ => exact {}

theorem RequestOp.leaves {s t : State} (h : RequestOp s t) : State.Leaves fires s t := by
  cases h with
  | executed _ hx => exact hx.leaves
  | replayed p hp hl =>
    unfold State.answerFromCache
    split <;> exact {}
  | _ => exact {}

theorem ReceiveOp.leaves {s t : State} (h : ReceiveOp s t) : State.Leaves fires s t := by
  cases h with
  | request _ hop => exact hop.leaves
  | _ => exact {}

theorem State.evaluateWatch_leaves (copied : Bool) (payload : Payload) (start : Bool) (s : State) (i : WatchId) :
    State.Leaves fires s (State.evaluateWatch copied payload start s i) := by
  rw [State.evaluateWatch_fields]
  exact {}

/-- The Map Store swaps its banks at a superframe start with valid ring time alone (R62, R63). -/
theorem State.fireSwitch_leaves (rt : Bool) (s : State) :
    State.Leaves ((rt && FrameNumber.isStart s.aligner.flywheel) = true) s (State.fireSwitch rt s) where
  resetN := by rw [State.fireSwitch_frame]
  current := by rw [State.fireSwitch_frame]
  copyArriving := by rw [State.fireSwitch_frame]
  aligner := by rw [State.fireSwitch_frame]
  threshold := by rw [State.fireSwitch_frame]; exact id
  openChoice := by rw [State.fireSwitch_frame]
  bank := by
    by_cases h : (rt && FrameNumber.isStart s.aligner.flywheel) = true
    · exact .inl h
    · rw [State.fireSwitch, if_neg h]
      exact .inr ⟨rfl, rfl⟩

theorem HandOnOp.leaves {rt : Bool} {s t : State} (h : HandOnOp rt s t) :
    State.Leaves ((rt && FrameNumber.isStart s.aligner.flywheel) = true) s t := by
  cases h with
  | receive _ hop => exact hop.leaves
  | fired => exact State.fireSwitch_leaves rt s
  | evaluated copied payload start i => exact State.evaluateWatch_leaves copied payload start s i

theorem RequestOps.leaves {s t : State} (h : RequestOps s t) : State.Leaves fires s t :=
  kept_of_ops h (fun _ _ hop hk => hk.trans hop.leaves) (.refl s)

theorem ReceiveOps.leaves {s t : State} (h : ReceiveOps s t) : State.Leaves fires s t :=
  kept_of_ops h (fun _ _ hop hk => hk.trans hop.leaves) (.refl s)

theorem HandOnOps.leaves {rt : Bool} {s t : State} (h : HandOnOps rt s t) :
    State.Leaves ((rt && FrameNumber.isStart s.aligner.flywheel) = true) s t := by
  refine kept_of_ops h (fun u v hop hk => hk.trans ?_) (.refl s)
  have hflywheel : u.aligner.flywheel = s.aligner.flywheel := by rw [hk.aligner]
  rw [← hflywheel]
  exact hop.leaves

theorem State.take_leaves (s : State) : State.Leaves fires s (State.take s) := RequestOps.leaves (State.take_ops s)

theorem State.abortCounted_leaves (s : State) : State.Leaves fires s (State.abortCounted s) :=
  ReceiveOps.leaves (State.abortCounted_ops s)

end Sys2Proof.Machine

/-! SUPPORT. What the operations of the Local Port and of the aligner keep. -/

namespace Sys2Proof.Machine

set_option Elab.async false

/-! ### Stores and local frames -/

theorem State.dropSlip_keeps (s : State) (b : Bool) : State.Keeps s (State.dropSlip s b) := by
  unfold State.dropSlip
  split
  · exact .trans (State.count_keeps _ _) (State.post_keeps _ _ _ _)
  · exact .refl s

theorem State.addSlip_keeps (s : State) (b : Bool) : State.Keeps s (State.addSlip s b) := by
  unfold State.addSlip
  split
  · exact .trans (State.count_keeps _ _) (State.post_keeps _ _ _ _)
  · exact .refl s

/-- The Drop Store replaced by one that is STOPPED exactly where it was. -/
theorem LocalPort.StoresSound.withDrop {p : LocalPort} {st : Store} (h : LocalPort.StoresSound p) (hst : Store.Sound st)
    (hstopped : st.state = .stopped ↔ p.drop.state = .stopped) : LocalPort.StoresSound { p with drop := st } := by
  obtain ⟨⟨hdog, hmode, hlost, hdrop, hrest⟩, -, hadd⟩ := h
  exact ⟨⟨hdog, hmode, hlost, hstopped.trans hdrop, hrest⟩, hst, hadd⟩

/-- The Add Store replaced by one that is STOPPED exactly where it was. -/
theorem LocalPort.StoresSound.withAdd {p : LocalPort} {st : Store} (h : LocalPort.StoresSound p) (hst : Store.Sound st)
    (hstopped : st.state = .stopped ↔ p.add.state = .stopped) : LocalPort.StoresSound { p with add := st } := by
  obtain ⟨⟨hdog, hmode, hlost, hdrop, hadd, hrest⟩, hdropSound, -⟩ := h
  exact ⟨⟨hdog, hmode, hlost, hdrop, hstopped.trans hadd, hrest⟩, hdropSound, hst⟩

theorem State.writeDrop_keeps (s : State) (f : LocalSamples) : State.Keeps s (State.writeDrop s f) :=
  .trans (.of_port fun h => h.withDrop (Store.write_sound _ f h.2.1) (Store.write_stopped _ f)) (State.dropSlip_keeps _ _)

theorem State.writeAdd_keeps (s : State) (f : LocalSamples) : State.Keeps s (State.writeAdd s f) :=
  .trans (.of_port fun h => h.withAdd (Store.write_sound _ f h.2.2) (Store.write_stopped _ f)) (State.addSlip_keeps _ _)

theorem State.readAdd_keeps (s : State) : State.Keeps s (State.readAdd s).2 :=
  .trans (.of_port fun h => h.withAdd (Store.read_sound _ _ h.2.2) (by rw [Store.read_state])) (State.addSlip_keeps _ _)

/-- A local frame starts in no DISABLED port (R72). -/
theorem State.beginLocalFrame_keeps (s : State) (hm : LocalPort.Sound s.port → s.port.mode ≠ .disabled) :
    State.Keeps s (State.beginLocalFrame s) := by
  refine .trans (.of_port fun h => ?_) (State.dropSlip_keeps _ _)
  have hread := h.withDrop (Store.read_sound _ s.ringOut.idleWord h.2.1) (by rw [Store.read_state])
  obtain ⟨⟨hdog, hmode, hlost, hdrop, hadd, -, -⟩, hstores⟩ := hread
  exact ⟨⟨hdog, hmode, hlost, hdrop, hadd, nofun, fun hd => absurd hd (hm h.1)⟩, hstores⟩

/-- A local frame start is due in FOLLOW alone (R73). -/
theorem State.settleLocalStart_keeps (s : State) : State.Keeps s (State.settleLocalStart s) := by
  unfold State.settleLocalStart
  split
  · next hdue =>
    refine State.beginLocalFrame_keeps s fun ⟨_, _, _, _, _, hfollow, _⟩ hd => ?_
    rw [hfollow hdue] at hd
    cases hd
  · exact .refl s

theorem State.completeLocalFrame_keeps (s : State) (add : LocalSamples) :
    State.Keeps s (State.completeLocalFrame s add) := by
  unfold State.completeLocalFrame
  split
  · refine .trans (.of_port ?_) (State.writeAdd_keeps _ add)
    rintro ⟨⟨hdog, hmode, hlost, hdrop, hadd, hdue, hframe⟩, hstores⟩
    exact ⟨⟨hdog, hmode, hlost, hdrop, hadd, hdue, fun hd => by rw [hframe hd]; rfl⟩, hstores⟩
  · exact .refl s

theorem State.completeLocalFrame_mode (s : State) (add : LocalSamples) :
    (State.completeLocalFrame s add).port.mode = s.port.mode := by
  unfold State.completeLocalFrame
  split
  · rw [State.writeAdd_port]
  · rfl

/-- In FOLLOW the next local frame start may be due (R73). -/
theorem State.startDue_keeps (s : State) (hm : s.port.mode = .follow) :
    State.Keeps s { s with port := { s.port with startDue := true } } :=
  .of_port fun ⟨⟨hdog, hmode, hlost, hdrop, hadd, _, hframe⟩, hstores⟩ =>
    ⟨⟨hdog, hmode, hlost, hdrop, hadd, fun _ => hm, hframe⟩, hstores⟩

theorem State.followFrameStart_keeps (s : State) : State.Keeps s (State.followFrameStart s) := by
  unfold State.followFrameStart
  split
  · next hm =>
    dsimp only
    split
    · exact .trans (State.completeLocalFrame_keeps s _) (.trans (State.draw_keeps _)
        (State.startDue_keeps (State.draw (State.completeLocalFrame s _)) ((State.completeLocalFrame_mode s _).trans hm)))
    · exact State.startDue_keeps s hm
  · exact .refl s

/-! ### The watchdog -/

theorem State.loseLocalTiming_keeps (s : State) (hm : s.port.mode = .external) :
    State.Keeps s (State.loseLocalTiming s) := by
  refine .trans (.of_port (p := { s.port with
    timingLost := true, watchdog := 4, drop := Store.emptied .stopped, add := Store.emptied .stopped, localFrame := none })
    fun ⟨⟨_, _, _, _, _, hdue, _⟩, _⟩ => ⟨⟨le_rfl, fun hne => absurd hm hne, ?_, ?_, ?_, hdue, ?_⟩,
    Store.emptied_sound .stopped (by decide), Store.emptied_sound .stopped (by decide)⟩) (State.post_keeps _ _ _ _)
  · exact ⟨fun _ => rfl, fun _ => rfl⟩
  · exact ⟨fun _ => .inr rfl, fun _ => rfl⟩
  · exact ⟨fun _ => .inr rfl, fun _ => rfl⟩
  · exact fun _ => rfl

theorem State.restoreLocalTiming_keeps (s : State) (hm : s.port.mode = .external) :
    State.Keeps s (State.restoreLocalTiming s) := by
  refine .trans (.of_port (p := { s.port with
    timingLost := false, watchdog := 0, drop := Store.emptied .priming, add := Store.emptied .priming })
    fun ⟨⟨_, _, _, _, _, hdue, _⟩, _⟩ => ⟨⟨Nat.zero_le _, fun _ => ⟨rfl, rfl⟩, ?_, ?_, ?_, hdue, ?_⟩,
    Store.emptied_sound .priming (by decide), Store.emptied_sound .priming (by decide)⟩) (State.post_keeps _ _ _ _)
  · exact ⟨nofun, nofun⟩
  all_goals simp [hm, Store.emptied]

/-- The watchdog count moves below 4 while local timing is not LOST (R85, R86). -/
theorem State.setWatchdog_keeps (s : State) (n : Nat) (hm : s.port.mode = .external) (hl : s.port.timingLost = false)
    (hn : n ≤ 3) : State.Keeps s { s with port := { s.port with watchdog := n } } := by
  refine .of_port fun ⟨⟨_, _, _, hrest⟩, hstores⟩ =>
    ⟨⟨by show n ≤ 4; omega, fun hne => absurd hm hne, ?_, hrest⟩, hstores⟩
  rw [hl]
  exact ⟨nofun, fun h => absurd h (by show n ≠ 4; omega)⟩

/-- The note that the watchdog's share of a mark is taken (log entry 12). -/
theorem State.setMarkTaken_keeps (s : State) (b : Bool) :
    State.Keeps s { s with port := { s.port with markTaken := b } } :=
  .of_port id

theorem State.watchdogMark_keeps (s : State) : State.Keeps s (State.watchdogMark s) := by
  unfold State.watchdogMark
  split
  · exact State.setMarkTaken_keeps s false
  · split
    · exact .refl s
    · next hrun =>
      obtain ⟨hm, hl⟩ := not_or.1 hrun
      split
      · exact State.loseLocalTiming_keeps s (not_not.1 hm)
      · next hlow => exact State.setWatchdog_keeps s _ (not_not.1 hm) (by simpa using hl) (by omega)

theorem State.externalStart_keeps (s : State) (hm : s.port.mode = .external) : State.Keeps s (State.externalStart s) := by
  unfold State.externalStart
  split
  · refine .trans (State.restoreLocalTiming_keeps s hm) (State.beginLocalFrame_keeps _ fun _ hd => ?_)
    exact nomatch hm.symm.trans hd
  · next hl =>
    refine .trans (State.setWatchdog_keeps s 0 hm (by simpa using hl) (Nat.zero_le _))
      (State.beginLocalFrame_keeps _ fun _ hd => ?_)
    exact nomatch hm.symm.trans hd

theorem State.watchdogShare_keeps (s : State) (hd : LocalPort.lossDue s.port = true) :
    State.Keeps s (State.watchdogShare s) := by
  simp only [LocalPort.lossDue, Bool.and_eq_true, decide_eq_true_eq] at hd
  exact .trans (State.loseLocalTiming_keeps s hd.1.1) (State.setMarkTaken_keeps _ true)

theorem State.mark_keeps (s : State) : State.Keeps s (State.mark s) :=
  .trans (.of_events (EventUnit.mark_keeps _ _ _ _ _)) (State.watchdogMark_keeps _)

/-! ### The aligner on a received frame -/

theorem State.acceptCandidate_keeps (s : State) (f : Frame) (behind : List Bool) :
    State.Keeps s (State.acceptCandidate s f behind) := {}

theorem State.huntFor_keeps (s : State) (candidate : Option Frame) : State.Keeps s (State.huntFor s candidate) := by
  unfold State.huntFor
  split
  · exact State.acceptCandidate_keeps s _ _
  · have hemptied : State.Keeps s { s with aligner := { s.aligner with keptBits := [] } } := .of_aligner id
    dsimp only
    split
    · split
      · exact hemptied.trans (State.acceptCandidate_keeps _ _ _)
      · exact hemptied
    · exact hemptied

theorem State.gainAlignment_keeps (s : State) : State.Keeps s (State.gainAlignment s) :=
  .trans (t := { s with
    aligner := { Aligner.countsCleared s.aligner .aligned with flywheel := successor s.aligner.flywheel }
    ringOut := { s.ringOut with copyArriving := !State.substituteInEmission s } }) {} (State.post_keeps _ _ _ _)

theorem State.confirmWith_keeps (s : State) (f : Frame) : State.Keeps s (State.confirmWith s f) := by
  unfold State.confirmWith State.testFrame
  split
  · split
    · exact State.gainAlignment_keeps s
    · exact .of_aligner id
  · exact .of_aligner id

theorem State.stepFlywheel_settled_resetN (s : State) : (State.stepFlywheel (State.settleChoice s)).resetN = s.resetN := by
  rw [State.settleChoice_frame]; rfl

theorem State.learnFrom_frame (s : State) (f : Frame) :
    State.learnFrom s f = { s with
      aligner := { s.aligner with
        position := (State.learnFrom s f).aligner.position
        lastUf := (State.learnFrom s f).aligner.lastUf }
      events := (State.learnFrom s f).events
      choices := (State.learnFrom s f).choices } := by
  unfold State.learnFrom
  split
  · rw [State.updateLastUf_frame]
  · split
    · rw [State.updateLastUf_frame, State.learnPosition_frame]; rfl
    · rw [State.learnPosition_frame, State.updateLastUf_frame]; rfl

/-- What the aligner takes from a classified frame for itself: its own fields, the counters and the Event Unit (R19 to R27). -/
theorem State.takeClassified_frame (s : State) (f : Frame) (c : FrameClass) :
    State.takeClassified s f c = { s with
      aligner := (State.takeClassified s f c).aligner
      events := (State.takeClassified s f c).events
      counters := (State.takeClassified s f c).counters
      choices := (State.takeClassified s f c).choices } := by
  unfold State.takeClassified
  split
  · unfold State.takeGood
    dsimp only
    rw [State.learnFrom_frame]
    split <;> rfl
  · unfold State.takeBad State.countClass
    split <;> rfl

theorem State.classify_keeps (s : State) (f : Frame) (hr : s.resetN = true) : State.Keeps s (State.classify s f) := by
  unfold State.classify
  dsimp only
  have htaken : (State.takeClassified (State.stepFlywheel (State.settleChoice s)) f
      (frameClass f (successor s.aligner.flywheel))).resetN = true := by
    rw [State.takeClassified_frame]
    exact (State.stepFlywheel_settled_resetN s).trans hr
  have hhanded := ((State.settleChoice_keeps s).trans (State.stepFlywheel_keeps _)).trans
    ((State.takeClassified_keeps _ f (frameClass f (successor s.aligner.flywheel))).trans
      ((State.queueCopy_keeps _ f (frameClass f (successor s.aligner.flywheel)) htaken).trans
        (State.handOn_keeps _ s.ringOut.copyArriving (frameClass f (successor s.aligner.flywheel) = .good)
          (ringTimeValid (frameClass f (successor s.aligner.flywheel)) f.uf) f)))
  split
  · exact hhanded
  · exact hhanded.trans (State.judgeQuality_keeps _)

/-! ### The carrier -/

theorem State.carrierGone_keeps (s : State) : State.Keeps s (State.carrierGone s) :=
  .trans (.of_aligner (a := { s.aligner with carrier := false }) id) (State.post_keeps _ _ _ _)

theorem State.signalBack_keeps (s : State) :
    State.Keeps s
      (State.post { s with aligner := { s.aligner with carrier := true, align := .hunt, keptBits := [] } } .signalBack
        none none) :=
  .trans (.of_aligner (a := { s.aligner with carrier := true, align := .hunt, keptBits := [] }) id)
    (State.post_keeps _ _ _ _)

end Sys2Proof.Machine

/-! SUPPORT. What ring-out keeps: the arbiter, the start of an emitted frame, its end with the reports of R127, and the
resets. -/

namespace Sys2Proof.Machine

set_option Elab.async false

/-! ### The packet in emission and the head of the transit queue (R119, R124) -/

/-- The head of the transit queue leaves it, none of it incomplete (R122, R123). -/
theorem ServiceChannel.popHead_sound {c : ServiceChannel} {p : TransitPacket} {rest : List TransitPacket}
    (h : ServiceChannel.Sound c) (hq : c.transit = p :: rest) (hm : p.mark ≠ .incomplete) :
    ServiceChannel.Sound { c with emission := .nothing, transit := rest } := by
  obtain ⟨htotal, hassembly, hsound, hfront, hlast, htail, -, hwait⟩ := h
  rw [hq] at htotal hsound hfront hlast htail
  rw [transitTotal_cons] at htotal
  rw [List.all_cons, Bool.and_eq_true] at hsound
  refine ⟨(Nat.le_add_left _ _).trans htotal, hassembly, hsound.2, ?_, ?_, ?_, ?_, hwait⟩
  · intro x hx
    cases rest with
    | nil => cases hx
    | cons r rs => exact hfront x (List.mem_cons_of_mem _ hx)
  · cases rest with
    | nil =>
      have hidle : ServiceChannel.filling c = false := by simpa [hm] using hlast.symm
      exact hidle.symm
    | cons r rs => exact hlast
  · exact fun x hx => htail x (List.mem_of_mem_tail hx)
  · cases rest with
    | nil => rfl
    | cons r rs =>
      have : r.forwarded = 0 := htail r (List.mem_cons_self ..)
      simp [this]

/-- The head of the transit queue is in emission, having forwarded some of what it held (R122). -/
theorem ServiceChannel.advanceHead_sound {c : ServiceChannel} {p p' : TransitPacket} {rest : List TransitPacket}
    (h : ServiceChannel.Sound c) (hq : c.transit = p :: rest) (hs : TransitPacket.sound p' = true)
    (hm : p'.mark = p.mark) (hl : p'.held.length ≤ p.held.length) (hf : p'.forwarded ≠ 0) :
    ServiceChannel.Sound { c with emission := .transit, transit := p' :: rest } := by
  obtain ⟨htotal, hassembly, hsound, hfront, hlast, htail, -, hwait⟩ := h
  rw [hq] at htotal hsound hfront hlast htail
  rw [transitTotal_cons] at htotal
  rw [List.all_cons, Bool.and_eq_true] at hsound
  refine ⟨?_, hassembly, ?_, ?_, ?_, htail, ?_, hwait⟩
  · show transitTotal (p' :: rest) ≤ 256
    rw [transitTotal_cons]
    omega
  · show List.all (p' :: rest) _ = true
    rw [List.all_cons, hs, hsound.2, Bool.and_self]
  · intro x hx
    cases rest with
    | nil => cases hx
    | cons r rs =>
      obtain rfl | hx := List.mem_cons.1 hx
      · rw [hm]; exact hfront p (List.mem_cons_self ..)
      · exact hfront x (List.mem_cons_of_mem _ hx)
  · cases rest with
    | nil =>
      have hlast : decide (p.mark = .incomplete) = ServiceChannel.filling c := hlast
      show decide (p'.mark = .incomplete) = ServiceChannel.filling c
      rw [hm, hlast]
    | cons r rs => exact hlast
  · show decide (p'.forwarded ≠ 0) = true
    exact decide_eq_true hf

/-- Another packet than the head of the transit queue is in emission, or none (R124). -/
theorem ServiceChannel.setEmission_sound {c : ServiceChannel} {e : InEmission} (h : ServiceChannel.Sound c)
    (hc : c.emission ≠ .transit) (he : e ≠ .transit) : ServiceChannel.Sound { c with emission := e } := by
  obtain ⟨htotal, hassembly, hsound, hfront, hlast, htail, hhead, hwait⟩ := h
  refine ⟨htotal, hassembly, hsound, hfront, hlast, htail, ?_, hwait⟩
  rw [hhead, decide_eq_false hc]
  exact (decide_eq_false he).symm

/-- A new packet in emission and transit queue. -/
theorem State.Keeps.withEmission {s u : State} (h : State.Keeps s u) (e : InEmission) (q : List TransitPacket)
    (hs : ServiceChannel.Sound u.service → ServiceChannel.Sound (State.withEmission u e q).service)
    (hf : State.PacketsFit s → InEmission.fits e = true) : State.Keeps s (State.withEmission u e q) where
  pending := h.pending
  map := h.map
  port := h.port
  watches := h.watches
  service hc := hs (h.service hc)
  events := h.events
  notifier := h.notifier
  engine := h.engine
  packets hp := by
    have hfit := hf hp
    have hu := h.packets hp
    rw [State.packetsFit_iff] at hu ⊢
    exact ⟨hu.1, hu.2.1, hfit⟩
  ringOut := h.ringOut
  address := h.address

/-! ### The arbiter (R123 to R126) -/

theorem State.giveTransit_keepsSound (s : State) : State.Keeps s (State.giveTransit s).after := by
  unfold State.giveTransit
  split
  · exact .refl s
  · next p rest hq =>
    split
    · next hempty =>
      have hheld : p.held = [] := List.isEmpty_iff.1 hempty
      split
      · next haborted =>
        exact .withEmission (.refl s) _ _ (fun h => ServiceChannel.popHead_sound h hq (by rw [haborted]; decide)) fun _ => rfl
      · next hnot =>
        refine .withEmission (.refl s) _ _ (fun h => ?_) fun _ => rfl
        have hsound : TransitPacket.sound p = true := List.all_eq_true.1 h.2.2.1 p (by rw [hq]; exact List.mem_cons_self ..)
        have hbegun : p.forwarded ≠ 0 := by
          unfold TransitPacket.sound at hsound
          cases hm : p.mark <;> rw [hm, hheld] at hsound
          · simpa using hsound
          · cases hsound
          · exact absurd hm hnot
        exact ServiceChannel.advanceHead_sound h hq hsound rfl le_rfl hbegun
    · next hfull =>
      split
      · next hends =>
        exact .withEmission (.refl s) _ _
          (fun h => ServiceChannel.popHead_sound h hq (by rw [((TransitPacket.endsNext_iff p).1 hends).1]; decide)) fun _ => rfl
      · next hmore =>
        refine .withEmission (.refl s) _ _ (fun h => ?_) fun _ => rfl
        have hheld : 0 < p.held.length := List.length_pos_iff.2 (mt List.isEmpty_iff.2 hfull)
        have hbegun : p.forwarded + (p.held.take 3).length ≠ 0 := by rw [List.length_take]; omega
        refine ServiceChannel.advanceHead_sound h hq ?_ rfl (by simp) hbegun
        unfold TransitPacket.sound
        dsimp only
        rw [TransitPacket.endsNext_iff, not_and, not_le] at hmore
        cases hm : p.mark
        · exact Bool.or_eq_true_iff.2 (.inl (decide_eq_true hbegun))
        · have := hmore hm
          simp only [Bool.not_eq_true', List.isEmpty_eq_false_iff, ne_eq, List.drop_eq_nil_iff]
          omega
        · exact decide_eq_true hbegun

/-- An own packet in emission goes on (R126); `s` is the node before it began. -/
theorem State.Keeps.giveOwn {s u : State} (h : State.Keeps s u) (o : PacketOwner) (p : Packet) (sent : Nat) (part : OwnPart)
    (he : u.service.emission ≠ .transit) (hf : State.PacketsFit s → Packet.fits p = true) :
    State.Keeps s (State.giveOwn u o p sent part).after := by
  unfold State.giveOwn
  dsimp only
  split
  · exact h.withEmission _ _ (fun hc => ServiceChannel.setEmission_sound hc he nofun) fun _ => rfl
  · next hmore =>
    refine h.withEmission _ _ (fun hc => ServiceChannel.setEmission_sound hc he nofun) fun hp => ?_
    have : sent + 3 < (Packet.octets p).length := not_le.1 hmore
    simp only [InEmission.fits, hf hp, Bool.true_and, decide_eq_true_eq]
    exact this

/-- A packet that begins emission stays what it is in the reply queue (R141). -/
theorem beginOldest_packets (rs : List Reply) : (beginOldest rs).map (·.packet) = rs.map (·.packet) := by
  induction rs with
  | nil => rfl
  | cons r rs ih =>
    unfold beginOldest
    split
    · rw [List.map_cons, ih, List.map_cons]
    · rfl

/-- The reply queue changed in what is noted of its replies, their packets being some of those before. -/
theorem State.setReplies_keeps (s : State) (rs : List Reply) (hl : rs.length ≤ s.engine.replies.length)
    (hp : ∀ r ∈ rs, ∃ q ∈ s.engine.replies, q.packet = r.packet) :
    State.Keeps s { s with engine := { s.engine with replies := rs } } where
  engine := fun ⟨hrequests, hreplies, hpairs, haddress⟩ => ⟨hrequests, hl.trans hreplies, hpairs, haddress⟩
  packets h := by
    rw [State.packetsFit_iff] at h ⊢
    refine ⟨⟨fun r hr => ?_, h.1.2⟩, h.2⟩
    obtain ⟨q, hq, heq⟩ := hp r hr
    rw [← heq]
    exact h.1.1 q hq

theorem State.beginOldest_keeps (s : State) :
    State.Keeps s { s with engine := { s.engine with replies := beginOldest s.engine.replies } } := by
  have hmap := beginOldest_packets s.engine.replies
  refine State.setReplies_keeps s _ (by simpa using (congrArg List.length hmap).le) fun r hr => ?_
  have : r.packet ∈ s.engine.replies.map (·.packet) := hmap ▸ List.mem_map_of_mem hr
  simpa using this

theorem State.beginOwn_keepsSound (s : State) (he : s.service.emission ≠ .transit) :
    State.Keeps s (State.beginOwn s).after := by
  unfold State.beginOwn
  split
  · next r hr =>
    refine .giveOwn (State.beginOldest_keeps s) _ _ _ _ he fun hp => hp.1 r ?_
    exact List.mem_of_find?_eq_some hr
  · split
    · next c p hslot =>
      refine .giveOwn (.of_events (EventUnit.slotTaken_keeps _ _)) _ _ _ _ he fun hp => ?_
      have := hp.2.2.2.1
      rwa [hslot] at this
    · exact .refl s

theorem State.choose_keepsSound (s : State) : State.Keeps s (State.choose s).after := by
  unfold State.choose
  split
  · next he =>
    refine .withEmission (.refl s) _ _ (fun h => ServiceChannel.setEmission_sound h ?_ nofun) fun _ => rfl
    rw [he]; exact nofun
  · exact State.giveTransit_keepsSound s
  · next o p sent he =>
    refine .giveOwn (.refl s) _ _ _ _ (by rw [he]; exact nofun) fun hp => ?_
    have := ((State.packetsFit_iff s).1 hp).2.2
    rw [he, InEmission.fits, Bool.and_eq_true] at this
    exact this.1
  · next he =>
    have hnot : s.service.emission ≠ .transit := by rw [he]; exact nofun
    split
    · exact State.beginOwn_keepsSound s hnot
    · split
      · exact State.giveTransit_keepsSound s
      · split
        · exact State.beginOwn_keepsSound s hnot
        · exact .refl s

/-- The wait count never passes 65 (R125). -/
theorem waitAfter_le (part : OwnPart) (ready : Bool) {n : Nat} (h : n ≤ 65) : waitAfter part ready n ≤ 65 := by
  cases part <;> cases ready <;> simp [waitAfter, h]

theorem State.arbitrate_keepsSound (s : State) : State.Keeps s (State.arbitrate s).after := by
  refine .trans (State.choose_keepsSound s) ?_
  refine { service := fun ⟨htotal, hassembly, hsound, hfront, hlast, htail, hhead, hwait, hopen⟩ => ?_ }
  exact ⟨htotal, hassembly, hsound, hfront, hlast, htail, hhead, waitAfter_le _ _ hwait, hopen⟩

/-- The choice stays open with the wait count from before the mark (R124, R125). -/
theorem State.noted_keeps (s : State) :
    State.Keeps s (Given.noted (State.arbitrate (State.mark s)) s.service.waitCount) := by
  have h := (State.mark_keeps s).trans (State.arbitrate_keepsSound (State.mark s))
  exact
    { pending := h.pending, map := h.map, port := h.port, watches := h.watches, events := h.events, notifier := h.notifier
      engine := h.engine, packets := h.packets, ringOut := h.ringOut, address := h.address
      service := fun hc => Given.noted_sound _ _ hc.2.2.2.2.2.2.2.1 (h.service hc) }

/-! ### The start of an emitted frame (R9, R10) -/

theorem Frame.sealed_checkPasses (f : Frame) : Frame.checkPasses (Frame.sealed f) = true := by
  cases f
  simp only [Frame.checkPasses, Frame.sealed, Frame.properCheck, Frame.covered, decide_true]

/-- The frame that the Frame Builder places is sound where its source is a station's (R3, R4, R6, R9, R10). -/
theorem FrameSource.frame_sound (f : FrameSource) (g : Segment) (payload : Payload) (ends : SegmentEnd) (drop : LocalSamples)
    (hop : f.hop ≠ 0#6) (hsub : f.substitute = true → f.uf = true ∧ f.em = false) :
    Emission.sound { frame := FrameSource.frame f g payload, substitute := f.substitute, ends := ends, drop := drop
                     payloadDone := false } = true := by
  have hsync : Frame.syncFound (FrameSource.frame f g payload) = true := rfl
  have hcheck : Frame.checkPasses (FrameSource.frame f g payload) = true := Frame.sealed_checkPasses _
  have hhop : (FrameSource.frame f g payload).hop = f.hop := rfl
  have huf : (FrameSource.frame f g payload).uf = f.uf := rfl
  have hem : (FrameSource.frame f g payload).em = f.em := rfl
  simp only [Emission.sound, hsync, hcheck, hhop, huf, hem, hop, ne_eq, not_false_eq_true, decide_true, Bool.and_true,
    Bool.true_and]
  cases hs : f.substitute
  · rfl
  · obtain ⟨hu, he⟩ := hsub hs
    rw [hu, he]
    rfl

theorem State.place_current (s : State) (f : FrameSource) (add : LocalSamples) (g : Segment) (ends : SegmentEnd) :
    (State.place s f add g ends).ringOut.current = some
      { frame := FrameSource.frame f g (Grooming.payload (State.grooming s f add)), substitute := f.substitute, ends := ends
        drop := Grooming.dropFrame (State.grooming s f add) s.lastGood, payloadDone := false } := rfl

theorem State.Keeps.place {s u : State} (h : State.Keeps s u) (f : FrameSource) (add : LocalSamples) (g : Segment)
    (ends : SegmentEnd) (hr : u.resetN = true) (hop : State.RingOutSound s → f.hop ≠ 0#6)
    (hsub : f.substitute = true → f.uf = true ∧ f.em = false) : State.Keeps s (State.place u f add g ends) where
  pending := h.pending
  map := h.map
  port := h.port
  watches := h.watches
  service := h.service
  events := h.events
  notifier := h.notifier
  engine := h.engine
  packets := h.packets
  ringOut hs := by
    obtain ⟨-, hcopies, hposition, -⟩ := h.ringOut hs
    have hlow : ¬(State.place u f add g ends).resetN = false := by rw [State.place_resetN, hr]; decide
    refine ⟨?_, hcopies, hposition, fun h => absurd h hlow⟩
    rw [State.place_current, Option.all_some]
    exact FrameSource.frame_sound f g _ ends _ (hop hs) hsub
  address := h.address

theorem State.Keeps.emit {s u : State} (h : State.Keeps s u) (f : FrameSource) (hr : u.resetN = true)
    (hop : State.RingOutSound s → f.hop ≠ 0#6) (hsub : f.substitute = true → f.uf = true ∧ f.em = false) :
    State.Keeps s (State.emit u f) := by
  unfold State.emit
  dsimp only
  refine .trans (.place (h.trans ((State.noted_keeps u).trans
    ((State.followFrameStart_keeps _).trans (State.readAdd_keeps _)))) f _ _ _ ?_ hop hsub) (State.draw_keeps _)
  rw [State.readAdd_fields, State.followFrameStart_frame, Given.noted_frame, State.arbitrate_keeps, State.mark_frame]
  exact hr

theorem State.beginSubstitute_keeps (s : State) (hr : s.resetN = true) : State.Keeps s (State.beginSubstitute s) := by
  have hstep : State.Keeps s (State.steppedForSubstitute s) := {}
  exact hstep.emit _ hr (fun h => hopOf_ne_zero h.2.2.1) fun _ => ⟨rfl, rfl⟩

/-- The oldest copy that is due leaves the list (R29). -/
theorem State.popCopy_keeps (s : State) {c : Copy} {rest : List Copy} (hc : s.ringOut.copies = c :: rest) :
    State.Keeps s { s with ringOut := { s.ringOut with copies := rest } } where
  ringOut := fun ⟨hcurrent, hcopies, hposition, hheld⟩ => by
    rw [hc, List.all_cons, Bool.and_eq_true] at hcopies
    refine ⟨hcurrent, hcopies.2, hposition, fun hr => ?_⟩
    have := (hheld hr).2
    rw [hc] at this
    cases this

theorem State.beginForwarded_keeps (s : State) {c : Copy} {rest : List Copy} (hr : s.resetN = true)
    (hc : s.ringOut.copies = c :: rest) : State.Keeps s (State.beginForwarded s c rest) := by
  refine (State.popCopy_keeps s hc).emit _ hr (fun h => ?_) nofun
  have := h.2.1
  rw [hc, List.all_cons, Bool.and_eq_true] at this
  exact of_decide_eq_true this.1

/-! ### The end of an emitted frame (R51, R127) -/

/-- The frame in progress replaced by one that is as sound, or by none. -/
theorem State.setCurrent_keeps (s : State) (e : Option Emission)
    (h : s.ringOut.current.all Emission.sound = true → e.all Emission.sound = true)
    (hn : s.ringOut.current = none → e = none) :
    State.Keeps s { s with ringOut := { s.ringOut with current := e } } where
  ringOut := fun ⟨hcurrent, hcopies, hposition, hheld⟩ =>
    ⟨h hcurrent, hcopies, hposition, fun hr => ⟨hn (hheld hr).1, (hheld hr).2⟩⟩

/-- The local frame and the arbiter's choice of a frame are settled without touching the frame in progress. -/
theorem State.settled_ringOut (s : State) : (State.settleChoice (State.settleLocalStart s)).ringOut = s.ringOut := by
  rw [State.settleChoice_frame, State.settleLocalStart_frame]

theorem State.finishPayload_keeps (s : State) : State.Keeps s (State.finishPayload s) := by
  unfold State.finishPayload
  split
  · next e he =>
    split
    · exact .refl s
    · refine .trans ((State.settleLocalStart_keeps s).trans (State.settleChoice_keeps _))
        (.trans (State.setCurrent_keeps _ (some { e with payloadDone := true }) ?_ ?_) (State.writeDrop_keeps _ _))
      · rw [State.settled_ringOut, he]; exact id
      · rw [State.settled_ringOut, he]; exact nofun
  · exact .refl s

theorem State.warmReset_keeps (s : State) : State.Keeps s (State.warmReset s) where
  map := MapStore.warm_sound _
  service := fun ⟨htotal, hassembly, hsound, hfront, hlast, htail, hhead, _, _⟩ =>
    ⟨htotal, hassembly, hsound, hfront, hlast, htail, hhead, Nat.zero_le _, rfl⟩
  events := (EventUnit.cleared_keeps s.engine.address s.events).sound
  notifier := (EventUnit.cleared_keeps s.engine.address s.events).notifier
  engine := fun ⟨_, _, _, haddress⟩ => ⟨Nat.zero_le _, Nat.zero_le _, .nil, haddress⟩
  packets h := by
    rw [State.packetsFit_iff] at h ⊢
    exact ⟨⟨nofun, rfl⟩, (EventUnit.cleared_keeps s.engine.address s.events).packets h.2.1, h.2.2⟩

/-- A watch after a hardware or cold reset (R107). -/
theorem watchesHardware_sound (i : WatchId) : Watch.Sound watchesHardware[i] := by
  revert i
  decide +kernel

theorem LocalPort.hardware_sound : LocalPort.StoresSound LocalPort.hardware := by
  refine ⟨?_, ?_, ?_⟩ <;> simp [LocalPort.hardware, LocalPort.Sound, Store.Sound, Store.emptied]

theorem State.coldReset_keeps (s : State) : State.Keeps s (State.coldReset s) where
  map _ := MapStore.hardware_sound
  port _ := LocalPort.hardware_sound
  watches _ := watchesHardware_sound
  service _ := by
    refine ⟨Nat.zero_le _, Nat.zero_le _, rfl, nofun, rfl, nofun, ?_, Nat.zero_le _, rfl⟩
    show false = decide ((if s.service.emission = .nothing then InEmission.nothing else .abortDue) = .transit)
    split <;> rfl
  events := (EventUnit.hardware_keeps s.engine.address s.events).sound
  notifier := (EventUnit.hardware_keeps s.engine.address s.events).notifier
  engine := fun ⟨_, _, _, haddress⟩ => ⟨Nat.zero_le _, Nat.zero_le _, .nil, haddress⟩
  packets h := by
    rw [State.packetsFit_iff] at h ⊢
    refine ⟨⟨nofun, rfl⟩, (EventUnit.hardware_keeps s.engine.address s.events).packets h.2.1, ?_⟩
    show InEmission.fits (if s.service.emission = .nothing then InEmission.nothing else .abortDue) = true
    split <;> rfl
  ringOut _ := ⟨rfl, rfl, rfl, fun _ => ⟨rfl, rfl⟩⟩

theorem State.resetBy_keeps (s : State) (scope : ResetScope) : State.Keeps s (State.resetBy s scope) := by
  cases scope
  · exact State.coldReset_keeps s
  · exact State.warmReset_keeps s

theorem State.replyComplete_keeps (s : State) : State.Keeps s (State.replyComplete s) := by
  have hleft : State.Keeps s { s with engine := { s.engine with replies := s.engine.replies.eraseP (·.begun) } } :=
    State.setReplies_keeps s _ List.length_eraseP_le fun r hr => ⟨r, List.mem_of_mem_eraseP hr, rfl⟩
  unfold State.replyComplete
  dsimp only
  split
  · split
    · exact hleft.trans (State.resetBy_keeps _ _)
    · exact hleft.trans (State.take_keeps _)
  · exact hleft.trans (State.take_keeps _)

/-- Setting a forwarded flag changes neither the class nor the packet of a request (R144). -/
theorem Request.markForwarded_duplicates (n : Nat) (q r : Request) :
    Request.duplicates (Request.markForwarded n q) (Request.markForwarded n r) = Request.duplicates q r := by
  have hsame (q : Request) : (Request.markForwarded n q).packet = q.packet := by
    unfold Request.markForwarded
    split <;> rfl
  have hclass (q r : Request) :
      RequestClass.same (Request.markForwarded n q).cls (Request.markForwarded n r).cls = RequestClass.same q.cls r.cls := by
    cases hq : q.cls <;> cases hr : r.cls <;> simp [Request.markForwarded, hq, hr, RequestClass.same]
  simp only [Request.duplicates, hsame, hclass]

theorem State.markRequests_keeps (s : State) (n : Nat) :
    State.Keeps s { s with engine := { s.engine with requests := s.engine.requests.map (Request.markForwarded n) } } where
  engine := fun ⟨hrequests, hreplies, hpairs, haddress⟩ => by
    refine ⟨by rwa [List.length_map], hreplies, ?_, haddress⟩
    rw [List.pairwise_map]
    exact hpairs.imp fun {q r} h => (Request.markForwarded_duplicates n q r).trans h

theorem State.forwardedReport_keeps (s : State) (n : Nat) : State.Keeps s (State.forwardedReport s n) := by
  unfold State.forwardedReport
  split
  · split
    · exact State.resetBy_keeps s _
    · exact State.markRequests_keeps s n
  · exact State.markRequests_keeps s n

theorem State.boundaryReset_keeps (s : State) : State.Keeps s (State.boundaryReset s) := by
  unfold State.boundaryReset
  split
  · split
    · exact State.resetBy_keeps s _
    · exact .refl s
  · exact .refl s

theorem State.report_keeps (s : State) (e : SegmentEnd) : State.Keeps s (State.report s e) := by
  cases e with
  | nothing => exact .refl s
  | reply => exact State.replyComplete_keeps s
  | notification c q => exact .of_events (EventUnit.notificationComplete_keeps _ _ _ _ _)
  | forwarded n => exact State.forwardedReport_keeps s n

theorem State.endFrame_keeps (s : State) : State.Keeps s (State.endFrame s) := by
  unfold State.endFrame
  split
  · refine .trans (State.finishPayload_keeps s) (.trans (State.setCurrent_keeps _ none (fun _ => rfl) fun _ => rfl)
      (.trans (State.report_keeps _ _) (State.boundaryReset_keeps _)))
  · exact State.boundaryReset_keeps s

/-! ### The level of RESET_N -/

theorem State.resetBy_resetN (s : State) (scope : ResetScope) : (State.resetBy s scope).resetN = s.resetN := by
  cases scope <;> rfl

theorem State.boundaryReset_resetN (s : State) : (State.boundaryReset s).resetN = s.resetN := by
  unfold State.boundaryReset
  split
  · split
    · exact State.resetBy_resetN s _
    · rfl
  · rfl

theorem State.forwardedReport_resetN (s : State) (n : Nat) : (State.forwardedReport s n).resetN = s.resetN := by
  unfold State.forwardedReport
  split
  · split
    · exact State.resetBy_resetN s _
    · rfl
  · rfl

theorem State.replyComplete_resetN (s : State) : (State.replyComplete s).resetN = s.resetN := by
  unfold State.replyComplete
  dsimp only
  split
  · split
    · exact State.resetBy_resetN _ _
    · exact (State.take_leaves (fires := False) _).resetN
  · exact (State.take_leaves (fires := False) _).resetN

theorem State.report_resetN (s : State) (e : SegmentEnd) : (State.report s e).resetN = s.resetN := by
  cases e with
  | nothing => rfl
  | reply => exact State.replyComplete_resetN s
  | notification c q => rfl
  | forwarded n => exact State.forwardedReport_resetN s n

theorem State.endFrame_resetN (s : State) : (State.endFrame s).resetN = s.resetN := by
  unfold State.endFrame
  split
  · rw [State.boundaryReset_resetN, State.report_resetN, State.finishPayload_frame]
  · exact State.boundaryReset_resetN s

/-! ### Hardware reset (R184) -/

theorem State.heldInReset_keeps (s : State) : State.Keeps s (State.heldInReset s) where
  port := fun ⟨⟨hdog, hmode, hlost, hdrop, hadd, _, _⟩, hstores⟩ =>
    ⟨⟨hdog, hmode, hlost, hdrop, hadd, nofun, fun _ => rfl⟩, hstores⟩
  ringOut := fun ⟨_, _, hposition, _⟩ => ⟨rfl, rfl, hposition, fun _ => ⟨rfl, rfl⟩⟩

theorem State.released_sound (s : State) (carrier b : Bool) :
    State.StaysSound s { State.released s carrier with resetN := b } where
  map _ := MapStore.hardware_sound
  port _ := LocalPort.hardware_sound
  watches _ := watchesHardware_sound
  service _ := ⟨Nat.zero_le _, Nat.zero_le _, rfl, nofun, rfl, nofun, rfl, Nat.zero_le _, rfl⟩
  events := (EventUnit.hardware_keeps s.engine.address s.events).sound
  notifier _ := (EventUnit.hardware_keeps none EventUnit.hardware).notifier
    (.of_quiet rfl (fun c => by simp [EventUnit.hardware]) rfl rfl)
  engine _ := ⟨Nat.zero_le _, Nat.zero_le _, .nil, rfl⟩
  packets h := by
    rw [State.packetsFit_iff] at h ⊢
    exact ⟨⟨nofun, rfl⟩, (EventUnit.hardware_keeps s.engine.address s.events).packets h.2.1, rfl⟩
  ringOut _ := ⟨rfl, rfl, rfl, fun _ => ⟨rfl, rfl⟩⟩

end Sys2Proof.Machine

/-! SUPPORT. What every command keeps (spec/95): the conditions of the blocks, each by its own lemma, and the settlement of the
statements that say so. -/

namespace Sys2Proof.Machine

set_option Elab.async false

/-- The two commands that give the node its hardware values, the address with them (R184). -/
def Instr.startsNode (c : Instr) : Prop :=
  (∃ high carrier, c = .powerOn high carrier) ∨ ∃ carrier, c = .hardwareResetRelease carrier

/-- Every command keeps the conditions of the blocks, and all but those of the hardware reset keep an address. -/
theorem Ran.keeps {s t : State} {c : Instr} (h : Ran s c t) :
    State.Keeps s t ∨ State.StaysSound s t ∧ Instr.startsNode c := by
  cases h with
  | stays c => exact .inl (.refl s)
  | poweredOn high carrier => exact .inr ⟨State.released_sound s carrier high, .inl ⟨high, carrier, rfl⟩⟩
  | held => exact .inl (State.heldInReset_keeps s)
  | released carrier hr => exact .inr ⟨State.released_sound s carrier true, .inr ⟨carrier, rfl⟩⟩
  | signalLost hr hn ha =>
    exact .inl ((State.carrierGone_keeps s).trans (.of_aligner (a := Aligner.countsCleared _ .noSignal) id))
  | alignmentLost hr ha => exact .inl ((State.carrierGone_keeps s).trans (State.leaveAligned_keeps _ _))
  | signalBack hr ha => exact .inl (State.signalBack_keeps s)
  | hunted candidate hr ha => exact .inl (State.huntFor_keeps s candidate)
  | confirmed f hr ha => exact .inl (State.confirmWith_keeps s f)
  | classified c f hc hr ha => exact .inl (State.classify_keeps s f hr)
  | substituteBegan hr hm =>
    have hr' : (State.endFrame s).resetN = true := by
      simp only [State.substituteMayStart, Bool.and_eq_true] at hm
      exact hm.1.1
    exact .inl ((State.endFrame_keeps s).trans (State.beginSubstitute_keeps _ hr'))
  | forwardedBegan copy rest hr hc =>
    exact .inl ((State.endFrame_keeps s).trans (State.beginForwarded_keeps _ ((State.endFrame_resetN s).trans hr) hc))
  | payloadCompleted hr => exact .inl (State.finishPayload_keeps s)
  | frameEnded c hc hr => exact .inl (State.endFrame_keeps s)
  | forwardedReported n hr hm => exact .inl (State.forwardedReport_keeps s n)
  | localFrameBegan hr hm hd =>
    exact .inl (State.beginLocalFrame_keeps s fun _ => by rw [hm]; exact nofun)
  | externalStarted hr hm => exact .inl (State.externalStart_keeps s hm)
  | localFrameCompleted add hr => exact .inl (State.completeLocalFrame_keeps s add)
  | localTimingLost hr hd => exact .inl ((State.endFrame_keeps s).trans (State.watchdogShare_keeps _ hd))
  | expired cls hr hd => exact .inl (.of_events (EventUnit.expire_keeps _ _ _ _ _))
  | requestTaken hr => exact .inl (State.take_keeps s)
  | delivered c d op params hc => exact .inl (State.deliver_keeps s d op params)

theorem exec_sound {s t : State} {c : Instr} (h : exec c s = .next t) : State.StaysSound s t := by
  obtain hk | ⟨hs, -⟩ := (ran_of_exec h).keeps
  · exact hk.toStaysSound
  · exact hs

/-- A step keeps the conditions of the blocks; the queue alone has moved on. -/
theorem step_sound {s t : State} (h : step s = .next t) : ∃ waiting, State.StaysSound { s with pending := waiting } t := by
  obtain ⟨-, rfl⟩ | ⟨c, rest, -, hx⟩ := step_cases h
  · exact ⟨t.pending, (State.Keeps.refl t).toStaysSound⟩
  · exact ⟨rest, exec_sound hx⟩

end Sys2Proof.Machine

namespace Sys2Proof.Proofs

open Sys2Proof Sys2Proof.Machine

set_option Elab.async false

/-- Settles O2: the arms of the commands answer one by one, and no operation writes the queue. -/
theorem everyCommandGoesOn : Obligations.EveryCommandGoesOn := by
  intro c s
  obtain ⟨t, ht⟩ := exec_total c s
  exact ⟨t, ht, (exec_sound ht).pending⟩

/-- Settles O48. -/
theorem mapStaysConflictFree : Obligations.MapStaysConflictFree := by
  intro s t hm h
  obtain ⟨_, hk⟩ := step_sound h
  exact hk.map hm

/-- Settles O49. -/
theorem portStaysSound : Obligations.PortStaysSound := by
  intro s t hport hdrop hadd h
  obtain ⟨_, hk⟩ := step_sound h
  exact hk.port ⟨hport, hdrop, hadd⟩

/-- Settles O51. -/
theorem watchesStaySound : Obligations.WatchesStaySound := by
  intro s t hw h
  obtain ⟨_, hk⟩ := step_sound h
  exact hk.watches hw

/-- Settles O53. -/
theorem eventUnitStaysSound : Obligations.EventUnitStaysSound := by
  intro s t he h
  obtain ⟨_, hk⟩ := step_sound h
  exact hk.events he

/-- Settles O54. -/
theorem notifierNeedsAnAddress : Obligations.NotifierNeedsAnAddress := by
  refine ⟨fun s t hn h => ?_, fun c s t h hheld hlost => ?_⟩
  · obtain ⟨_, hk⟩ := step_sound h
    exact hk.notifier hn
  · obtain hk | ⟨-, hc⟩ := (ran_of_exec h).keeps
    · exact absurd hlost (hk.address hheld)
    · exact hc

/-- Settles O55. -/
theorem engineStaysSound : Obligations.EngineStaysSound := by
  intro s t h
  obtain ⟨_, hk⟩ := step_sound h
  exact ⟨hk.engine, hk.packets⟩

/-- Settles O57. -/
theorem emittedFramesAreCorrect : Obligations.EmittedFramesAreCorrect := by
  intro s t hr h
  obtain ⟨_, hk⟩ := step_sound h
  exact hk.ringOut hr

end Sys2Proof.Proofs

/-! SUPPORT. The layouts of spec/12: a word, a frame, a packet and a segment read back as they were sent. -/

namespace Sys2Proof.Machine

set_option Elab.async false

/-! ### Words as bits (spec/12) -/

@[simp] theorem length_bitsOf {w : Nat} (x : BitVec w) : (bitsOf x).length = w := by
  simp [bitsOf]

/-- The number that a list of bits spells, the first bit being the most significant. -/
def bitsValue (bs : List Bool) : Nat := bs.foldl (fun n b => 2 * n + b.toNat) 0

theorem ofBits_eq (w : Nat) (bs : List Bool) : ofBits w bs = BitVec.ofNat w (bitsValue bs) := rfl

theorem bitsValue_concat (bs : List Bool) (b : Bool) : bitsValue (bs ++ [b]) = 2 * bitsValue bs + b.toNat := by
  simp [bitsValue]

/-- Bit `j` of the number is the `j`th bit from the end. -/
theorem testBit_bitsValue (bs : List Bool) (j : Nat) : (bitsValue bs).testBit j = bs.reverse.getD j false := by
  induction bs using List.reverseRecOn generalizing j with
  | nil => simp [bitsValue]
  | append_singleton bs b ih =>
    rw [bitsValue_concat, List.reverse_append]
    cases j with
    | zero => cases b <;> simp [Nat.testBit_zero, Nat.add_mod]
    | succ j =>
      have hhalf : (2 * bitsValue bs + b.toNat) / 2 = bitsValue bs := by have := Bool.toNat_lt b; omega
      rw [Nat.testBit_succ, hhalf, ih]
      simp

theorem bitsOf_ofBits {w : Nat} {bs : List Bool} (h : bs.length = w) : bitsOf (ofBits w bs) = bs := by
  refine List.ext_getElem (by rw [length_bitsOf, h]) fun i hi hi' => ?_
  have hw : i < w := h ▸ hi'
  simp only [bitsOf, List.getElem_map, List.getElem_range, BitVec.getMsbD, hw, decide_true, Bool.true_and, ofBits_eq,
    BitVec.getLsbD_ofNat, testBit_bitsValue]
  rw [decide_eq_true (by omega : w - 1 - i < w), Bool.true_and, List.getD_eq_getElem _ _ (by simp; omega),
    List.getElem_reverse]
  congr 1
  omega

theorem bitsOf_injective {w : Nat} : Function.Injective (bitsOf (w := w)) := by
  intro x y h
  refine BitVec.eq_of_getMsbD_eq fun i hi => ?_
  have := congrArg (fun l : List Bool => l[i]?) h
  simpa [bitsOf, hi] using this

theorem ofBits_bitsOf {w : Nat} (x : BitVec w) : ofBits w (bitsOf x) = x :=
  bitsOf_injective (bitsOf_ofBits (length_bitsOf x))

/-! ### Frames as bits (R1) -/

theorem fieldAt_here {w : Nat} (x : BitVec w) (rest : List Bool) : fieldAt w 0 (bitsOf x ++ rest) = x := by
  rw [fieldAt, List.drop_zero, List.take_append_of_le_length (length_bitsOf x).ge,
    List.take_of_length_le (length_bitsOf x).le, ofBits_bitsOf]

theorem fieldAt_skip {w a : Nat} (front rest : List Bool) (h : front.length ≤ a) :
    fieldAt w a (front ++ rest) = fieldAt w (a - front.length) rest := by
  rw [fieldAt, fieldAt, List.drop_append, List.drop_of_length_le h, List.nil_append]

/-- The bits of a frame before its payload. -/
def Frame.headerBits (f : Frame) : List Bool :=
  bitsOf f.sync ++ (bitsOf f.number.index ++ (bitsOf f.number.superframe ++ (bitsOf f.hop ++ ([f.uf] ++ ([f.em] ++
    (bitsOf f.service.control ++ (bitsOf f.service.data1 ++ (bitsOf f.service.data2 ++ bitsOf f.service.data3))))))))

theorem Frame.bits_eq (f : Frame) :
    Frame.bits f = Frame.headerBits f ++ (f.payload.toList.flatMap bitsOf ++ bitsOf f.check) := by
  simp only [Frame.bits, Frame.covered, Segment.bits, Frame.headerBits, List.append_assoc, List.cons_append, List.nil_append]

@[simp] theorem Frame.length_headerBits (f : Frame) : (Frame.headerBits f).length = 72 := by
  simp [Frame.headerBits]

theorem length_flatMap_bitsOf {w : Nat} (xs : List (BitVec w)) : (xs.flatMap bitsOf).length = xs.length * w := by
  induction xs with
  | nil => simp
  | cons x xs ih => rw [List.flatMap_cons, List.length_append, ih, length_bitsOf, List.length_cons, Nat.succ_mul, Nat.add_comm]

@[simp] theorem length_payloadBits (p : Payload) : (p.toList.flatMap bitsOf).length = 1152 := by
  rw [length_flatMap_bitsOf, Vector.length_toList]

theorem Frame.length_bits (f : Frame) : (Frame.bits f).length = 1240 := by
  simp [Frame.bits_eq]

theorem Frame.length_covered (f : Frame) : (Frame.covered f).length = 1212 := by
  simp [Frame.covered, Segment.bits]

/-- A word out of a row of words. -/
theorem fieldAt_flatMap {w i : Nat} (xs : List (BitVec w)) (rest : List Bool) (h : i < xs.length) :
    fieldAt w (w * i) (xs.flatMap bitsOf ++ rest) = xs[i] := by
  induction xs generalizing i with
  | nil => cases h
  | cons x xs ih =>
    rw [List.flatMap_cons, List.append_assoc]
    cases i with
    | zero => exact fieldAt_here x _
    | succ i =>
      rw [fieldAt_skip _ _ (by rw [length_bitsOf, Nat.mul_succ]; omega), length_bitsOf, Nat.mul_succ, Nat.add_sub_cancel]
      exact ih _

theorem Frame.ofBits_bits (f : Frame) : Frame.ofBits (Frame.bits f) = f := by
  have hpad : Frame.bits f ++ List.replicate (1240 - (Frame.bits f).length) false = Frame.bits f := by
    rw [Frame.length_bits, Nat.sub_self, List.replicate_zero, List.append_nil]
  have hpayload : (Vector.ofFn fun s : Slot => fieldAt 24 (72 + 24 * s.val) (Frame.bits f)) = f.payload := by
    ext i hi
    rw [Vector.getElem_ofFn, Frame.bits_eq, fieldAt_skip _ _ (by rw [Frame.length_headerBits]; omega),
      Frame.length_headerBits, Nat.add_sub_cancel_left, fieldAt_flatMap _ _ (by rwa [Vector.length_toList]),
      Vector.getElem_toList]
  have hcheck : fieldAt 16 1224 (Frame.bits f) = f.check := by
    have h := fieldAt_here f.check []
    rw [List.append_nil] at h
    rw [Frame.bits_eq, fieldAt_skip _ _ (by rw [Frame.length_headerBits]; decide), Frame.length_headerBits,
      fieldAt_skip _ _ (by rw [length_payloadBits]), length_payloadBits, h]
  unfold Frame.ofBits
  dsimp only
  rw [hpad, hpayload, hcheck]
  have hskip {w v a : Nat} (x : BitVec v) (rest : List Bool) (h : v ≤ a) :
      fieldAt w a (bitsOf x ++ rest) = fieldAt w (a - v) rest := by
    rw [fieldAt_skip _ _ (by rwa [length_bitsOf]), length_bitsOf]
  have hskip1 {w a : Nat} (b : Bool) (rest : List Bool) (h : 1 ≤ a) :
      fieldAt w a ([b] ++ rest) = fieldAt w (a - 1) rest := fieldAt_skip _ _ h
  obtain ⟨sync, ⟨index, superframe⟩, hop, uf, em, ⟨control, data1, data2, data3⟩, payload, check⟩ := f
  have huf : (Frame.bits ⟨sync, ⟨index, superframe⟩, hop, uf, em, ⟨control, data1, data2, data3⟩, payload, check⟩).getD 38
      false = uf := by
    simp [Frame.bits_eq, Frame.headerBits, List.getD_eq_getElem?_getD]
  have hem : (Frame.bits ⟨sync, ⟨index, superframe⟩, hop, uf, em, ⟨control, data1, data2, data3⟩, payload, check⟩).getD 39
      false = em := by
    simp [Frame.bits_eq, Frame.headerBits, List.getD_eq_getElem?_getD]
  rw [huf, hem]
  simp (disch := omega) only [Frame.bits_eq, Frame.headerBits, List.append_assoc, hskip, hskip1, Nat.reduceSub, fieldAt_here]

/-- The bits of a field are those at its place. -/
theorem bitsOf_fieldAt {w a : Nat} {bs : List Bool} (h : a + w ≤ bs.length) :
    bitsOf (fieldAt w a bs) = (bs.drop a).take w :=
  bitsOf_ofBits (by rw [List.length_take, List.length_drop]; omega)

/-- A field and what is behind it. -/
theorem take_append_behind {a b w : Nat} (bs : List Bool) (h : b = a + w) :
    (bs.drop a).take w ++ bs.drop b = bs.drop a := by
  rw [h, ← List.drop_drop, List.take_append_drop]

/-- Fields one behind the other are the bits that they take up. -/
theorem fields_append {w : Nat} (bs : List Bool) (a n : Nat) (h : a + w * n ≤ bs.length) :
    ((List.ofFn fun i : Fin n => fieldAt w (a + w * i.val) bs).flatMap bitsOf) ++ bs.drop (a + w * n) = bs.drop a := by
  induction n generalizing a with
  | zero => simp
  | succ n ih =>
    rw [Nat.mul_succ] at h
    rw [List.ofFn_succ, List.flatMap_cons, List.append_assoc]
    have htail := ih (a + w) (by omega)
    have hshift : (fun i : Fin n => fieldAt w (a + w * i.succ.val) bs) = fun i : Fin n => fieldAt w (a + w + w * i.val) bs := by
      funext i
      rw [Fin.val_succ, Nat.mul_succ]
      congr 1
      omega
    rw [hshift, show a + w * (n + 1) = a + w + w * n by rw [Nat.mul_succ]; omega, htail]
    show bitsOf (fieldAt w (a + w * 0) bs) ++ _ = _
    rw [Nat.mul_zero, Nat.add_zero, bitsOf_fieldAt (by omega)]
    exact take_append_behind bs rfl

theorem Frame.bits_ofBits {bs : List Bool} (h : bs.length = 1240) : Frame.bits (Frame.ofBits bs) = bs := by
  have hpad : bs ++ List.replicate (1240 - bs.length) false = bs := by
    rw [h, Nat.sub_self, List.replicate_zero, List.append_nil]
  have hbit (i : Nat) (hi : i < 1240) : [bs.getD i false] = (bs.drop i).take 1 := by
    rw [List.getD_eq_getElem _ _ (by omega), List.take_one_drop_eq_of_lt_length (by omega), List.get_eq_getElem]
  have hcheck : (bs.drop 1224).take 16 = bs.drop 1224 := List.take_of_length_le (by rw [List.length_drop, h])
  have hpayload : (Vector.ofFn fun s : Slot => fieldAt 24 (72 + 24 * s.val) bs).toList.flatMap bitsOf ++ bs.drop 1224 =
      bs.drop 72 := by
    rw [Vector.toList_ofFn]
    exact fields_append bs 72 48 (by omega)
  unfold Frame.ofBits
  dsimp only
  rw [hpad, Frame.bits_eq]
  unfold Frame.headerBits
  dsimp only
  rw [hbit 38 (by decide), hbit 39 (by decide)]
  have hfield {w a : Nat} (ha : a + w ≤ 1240) : bitsOf (fieldAt w a bs) = (bs.drop a).take w := bitsOf_fieldAt (h ▸ ha)
  simp (disch := decide) only [hfield, List.append_assoc, hcheck, hpayload, take_append_behind]
  rfl

/-! ### Packets and segments (R109, R131) -/

theorem octets16_injective : Function.Injective octets16 := by
  intro x y h
  simp only [octets16, List.cons.injEq, and_true] at h
  obtain ⟨hhigh, hlow⟩ := h
  have hx (z : BitVec 16) : z = z.extractLsb' 8 8 ++ z.extractLsb' 0 8 := by
    ext i hi
    rw [BitVec.getElem_append]
    split
    · simp [BitVec.getLsbD_eq_getElem hi]
    · simp [show 8 + (i - 8) = i by omega, BitVec.getLsbD_eq_getElem hi]
  rw [hx x, hx y, hhigh, hlow]

/-- The last two octets of a packet are the check over those before (R131). -/
theorem checkTest_append (front : List Octet) (hi lo : Octet) :
    checkTest (front ++ [hi, lo]) = decide (octets16 (octetsCheck front) = [hi, lo]) := by
  have hlength : (front ++ [hi, lo]).length - 2 = front.length := by simp
  rw [checkTest, hlength, List.take_left, List.drop_left]
  exact beq_eq_decide _ _

theorem octetOf_toNat {n : Nat} (h : n < 256) : (octetOf n).toNat = n := by
  rw [octetOf, BitVec.toNat_ofNat, Nat.mod_eq_of_lt h]

theorem Packet.ofOctets_octets {p : Packet} (h : p.params.length ≤ 56) : Packet.ofOctets (Packet.octets p) = some p := by
  have hcheck : checkTest (Packet.octets p) = true := by
    rw [Packet.octets]
    exact (checkTest_append _ _ _).trans (decide_eq_true rfl)
  have hcount : (octetOf p.params.length).toNat = p.params.length := octetOf_toNat (by omega)
  have hfifth : (Packet.octets p).getD 5 0#8 = octetOf p.params.length := rfl
  have hlength : lengthTest (Packet.octets p) = true := by
    simp only [lengthTest, hfifth, hcount, Packet.length_octets, Bool.and_eq_true, decide_eq_true_eq, beq_self_eq_true,
      and_true]
    omega
  have hparams : ((Packet.octets p).drop 6).take ((Packet.octets p).length - 8) = p.params := by
    rw [Packet.length_octets, Nat.add_sub_cancel_left]
    exact List.take_left
  rw [Packet.ofOctets, hlength, hcheck, hparams]
  rfl

theorem Packet.ofOctets_of_wrongCheck {os : List Octet} (h : checkTest os = false) : Packet.ofOctets os = none := by
  rw [Packet.ofOctets, h, Bool.and_false]
  rfl

/-- The control octet that the node builds has its kind and its count in their places (R109). -/
theorem SegmentKind.control_read (k : SegmentKind) {n : Nat} (h : n ≤ 3) :
    Segment.kind { control := (SegmentKind.code k <<< 4) ||| octetOf n, data1 := 0#8, data2 := 0#8, data3 := 0#8 } = some k ∧
      Segment.count { control := (SegmentKind.code k <<< 4) ||| octetOf n, data1 := 0#8, data2 := 0#8, data3 := 0#8 } = n := by
  obtain rfl | rfl | rfl | rfl : n = 0 ∨ n = 1 ∨ n = 2 ∨ n = 3 := by omega
  all_goals cases k <;> decide

theorem Segment.read_build {k : SegmentKind} {octets : List Octet} (hl : octets.length ≤ 3)
    (ha : SegmentKind.allows k octets.length = true) : Segment.read (Segment.build k octets) = some (k, octets) := by
  obtain ⟨hkind, hcount⟩ := SegmentKind.control_read k hl
  have hkind : Segment.kind (Segment.build k octets) = some k := hkind
  have hcount : Segment.count (Segment.build k octets) = octets.length := hcount
  have htake : [octets.getD 0 0#8, octets.getD 1 0#8, octets.getD 2 0#8].take octets.length = octets := by
    match octets, hl with
    | [], _ => rfl
    | [_], _ => rfl
    | [_, _], _ => rfl
    | [_, _, _], _ => rfl
  rw [Segment.read, hkind]
  simp only [hcount, ha, if_true]
  exact congrArg (fun os => some (k, os)) htake

end Sys2Proof.Machine

namespace Sys2Proof.Proofs

open Sys2Proof Sys2Proof.Machine

set_option Elab.async false

/-- Settles O59. -/
theorem frameBitsReadBack : Obligations.FrameBitsReadBack :=
  fun f => ⟨Frame.length_bits f, Frame.length_covered f, Frame.ofBits_bits f⟩

/-- Settles O60: the two octets behind the front are the check of the front, so that neither may differ. -/
theorem packetOctetsReadBack : Obligations.PacketOctetsReadBack := by
  refine ⟨fun p hp => ⟨Packet.ofOctets_octets hp, fun front hi lo hsplit wrong => ?_⟩, fun k octets hempty hfull => ?_⟩
  · have hlength : (Packet.body p).length = front.length := by
      have h := congrArg List.length hsplit
      simp only [Packet.octets, List.length_append, octets16, List.length_cons, List.length_nil] at h
      omega
    obtain ⟨hfront, hcheck⟩ := List.append_inj hsplit hlength
    rw [hfront] at hcheck
    refine ⟨fun hne => ?_, fun hne => ?_⟩
    all_goals
      refine Packet.ofOctets_of_wrongCheck ?_
      rw [checkTest_append, hcheck, decide_eq_false_iff_not]
      intro heq
      simp only [List.cons.injEq, and_true, true_and] at heq
      exact hne heq.symm
  · by_cases hk : k = .idle ∨ k = .abort
    · have ho := hempty hk
      subst ho
      refine Segment.read_build (Nat.zero_le _) ?_
      obtain rfl | rfl := hk <;> rfl
    · obtain ⟨hidle, habort⟩ := not_or.1 hk
      obtain ⟨hlow, hhigh⟩ := hfull hidle habort
      refine Segment.read_build hhigh ?_
      cases k with
      | idle => exact absurd rfl hidle
      | abort => exact absurd rfl habort
      | start | middle | ending | single => exact decide_eq_true hlow

end Sys2Proof.Proofs

/-! SUPPORT. A classified frame and the end of an emitted frame, each said once as the parts it is made of; the arbiter's open
choice and the active bank over every command. -/

namespace Sys2Proof.Machine

set_option Elab.async false

/-! ### A classified frame (R19 to R28) -/

/-- The class of a frame at the expected position (R19). -/
def State.classOf (s : State) (f : Frame) : FrameClass := frameClass f (successor s.aligner.flywheel)

/-- Whether the frame has valid ring time (R21). -/
def State.ringTimeOf (s : State) (f : Frame) : Bool := ringTimeValid (State.classOf s f) f.uf

/-- The node once the aligner has taken a frame for itself and queued its copy, before the hand-on (R28). -/
def State.taken (s : State) (f : Frame) : State :=
  State.queueCopy (State.takeClassified (State.stepFlywheel (State.settleChoice s)) f (State.classOf s f)) f
    (State.classOf s f)

/-- The node once the frame has been handed on to the other blocks (R28). -/
def State.handedOn (s : State) (f : Frame) : State :=
  State.handOn (State.taken s f) s.ringOut.copyArriving (State.classOf s f = .good) (State.ringTimeOf s f) f

theorem State.classify_eq (s : State) (f : Frame) :
    State.classify s f =
      if State.classOf s f = .good then State.handedOn s f else State.judgeQuality (State.handedOn s f) := rfl

theorem frameClass_good_iff (f : Frame) (n : FrameNumber) :
    frameClass f n = .good ↔ f.sync = 0x9C7#12 ∧ f.check = checkOf (Frame.covered f) ∧ f.number = n := by
  simp only [frameClass, Frame.syncFound, Frame.checkPasses, Frame.properCheck, syncWord, Bool.not_eq_true',
    ne_eq, ite_not]
  by_cases hs : f.sync = 0x9C7#12
  · by_cases hc : checkOf (Frame.covered f) = f.check
    · by_cases hn : f.number = n
      · simp [hs, ← hc, hn]
      · simp [hs, hc, hn]
    · simp [hs, hc, Ne.symm (Ne.intro hc)]
  · simp [hs]

/-- A frame has valid ring time exactly where it is good and has UF 0 (R21). -/
theorem ringTimeValid_iff (c : FrameClass) (uf : Bool) : ringTimeValid c uf = true ↔ c = .good ∧ uf = false := by
  simp [ringTimeValid]

/-- The flywheel takes its successor, and what a frame teaches leaves it alone (R22). -/
theorem State.takeClassified_aligner (s : State) (f : Frame) (c : FrameClass) :
    (State.takeClassified s f c).aligner =
      { s.aligner with
        consecutiveBad := (State.takeClassified s f c).aligner.consecutiveBad
        windowCount := (State.takeClassified s f c).aligner.windowCount
        position := (State.takeClassified s f c).aligner.position
        lastUf := (State.takeClassified s f c).aligner.lastUf } := by
  unfold State.takeClassified
  split
  · unfold State.takeGood
    dsimp only
    rw [State.learnFrom_frame]
    split <;> rfl
  · unfold State.takeBad State.countClass
    split <;> rfl

theorem State.taken_frame (s : State) (f : Frame) :
    State.taken s f = { State.settleChoice s with
      aligner := (State.taken s f).aligner
      ringOut := { s.ringOut with
        copies := (State.taken s f).ringOut.copies
        copyArriving := (State.taken s f).ringOut.copyArriving }
      events := (State.taken s f).events
      counters := (State.taken s f).counters
      choices := (State.taken s f).choices } := by
  unfold State.taken State.queueCopy
  rw [State.takeClassified_frame, State.settleChoice_frame]
  rfl

theorem State.taken_aligner (s : State) (f : Frame) :
    (State.taken s f).aligner =
      (State.takeClassified (State.stepFlywheel (State.settleChoice s)) f (State.classOf s f)).aligner := rfl

/-- Closing the quality window leaves the flywheel as it is (R23). -/
theorem Aligner.closeWindow_flywheel (a : Aligner) : (Aligner.closeWindow a).flywheel = a.flywheel := by
  unfold Aligner.closeWindow
  split <;> rfl

theorem State.taken_flywheel (s : State) (f : Frame) : (State.taken s f).aligner.flywheel = successor s.aligner.flywheel := by
  rw [State.taken_aligner, State.takeClassified_aligner]
  show (Aligner.closeWindow _).flywheel = _
  rw [Aligner.closeWindow_flywheel, State.settleChoice_frame]

theorem State.handedOn_leaves (s : State) (f : Frame) :
    State.Leaves ((State.ringTimeOf s f && FrameNumber.isStart (successor s.aligner.flywheel)) = true) (State.taken s f)
      (State.handedOn s f) := by
  have h := (State.handOn_ops (State.taken s f) s.ringOut.copyArriving (State.classOf s f = .good)
    (State.ringTimeOf s f) f).leaves
  rwa [State.taken_flywheel] at h

/-- What the judgement of a bad frame touches (R20, R24, R113). -/
theorem State.judgeQuality_frame (s : State) :
    State.judgeQuality s = { s with
      aligner := (State.judgeQuality s).aligner
      ringOut := { s.ringOut with copyArriving := (State.judgeQuality s).ringOut.copyArriving }
      service := (State.judgeQuality s).service
      counters := (State.judgeQuality s).counters
      events := (State.judgeQuality s).events } := by
  have hreported : State.qualityReported s = { s with
      aligner := (State.qualityReported s).aligner, events := (State.qualityReported s).events } := by
    unfold State.qualityReported
    split <;> rfl
  rw [State.judgeQuality_eq]
  split
  · rw [State.leaveAligned_frame, hreported]
  · rw [hreported]

theorem State.judgeQuality_openChoice (s : State) :
    (State.judgeQuality s).service.openChoice = s.service.openChoice := by
  have hreported : (State.qualityReported s).service = s.service := by
    unfold State.qualityReported
    split <;> rfl
  rw [State.judgeQuality_eq]
  split
  · exact (State.abortCounted_leaves (fires := False) _).openChoice.trans
      (congrArg ServiceChannel.openChoice hreported)
  · rw [hreported]

/-- The search touches the aligner and the note of a reset pair alone (R16, log entry 29). -/
theorem State.huntFor_frame (s : State) (candidate : Option Frame) :
    State.huntFor s candidate = { s with
      aligner := (State.huntFor s candidate).aligner
      ringOut := { s.ringOut with resetPairDue := (State.huntFor s candidate).ringOut.resetPairDue } } := by
  unfold State.huntFor
  split
  · rfl
  · dsimp only
    split
    · split <;> rfl
    · rfl

/-- A test in CONFIRM touches the aligner, the mark that the next frame has a copy, and the Event Unit (R17, R31). -/
theorem State.confirmWith_frame (s : State) (f : Frame) :
    State.confirmWith s f = { s with
      aligner := (State.confirmWith s f).aligner
      ringOut := { s.ringOut with copyArriving := (State.confirmWith s f).ringOut.copyArriving }
      events := (State.confirmWith s f).events } := by
  unfold State.confirmWith State.testFrame
  split
  · split <;> rfl
  · rfl

/-- A local frame start in EXTERNAL touches the port, the counters and the Event Unit (R77, R86). -/
theorem State.externalStart_frame (s : State) :
    State.externalStart s = { s with
      port := (State.externalStart s).port
      counters := (State.externalStart s).counters
      events := (State.externalStart s).events } := by
  unfold State.externalStart
  rw [State.beginLocalFrame_frame]
  split <;> rfl

/-! ### The end of an emitted frame (R51, R127) -/

/-- One change that the reports at the end of an emitted frame make, short of a reset. -/
inductive ReportOp (s : State) : State → Prop
  | request (t : State) (h : RequestOp s t) : ReportOp s t
  | replyLeft : ReportOp s { s with engine := { s.engine with replies := s.engine.replies.eraseP (·.begun) } }
  | requestsMarked (n : Nat) :
    ReportOp s { s with engine := { s.engine with requests := s.engine.requests.map (Request.markForwarded n) } }
  | notified (c : ClassId) (q : Octet) : ReportOp s (State.notificationComplete s c q)

abbrev ReportOps : State → State → Prop := Relation.ReflTransGen ReportOp

theorem State.take_reportOps (s : State) : ReportOps s (State.take s) :=
  Relation.ReflTransGen.mono (fun _ v hop => ReportOp.request v hop) _ _ (State.take_ops s)

/-- What a report does: changes short of a reset, and perhaps a reset (R127, R141, R144, R160). -/
theorem State.report_cases (s : State) (e : SegmentEnd) :
    ∃ v, ReportOps s v ∧ (State.report s e = v ∨ ∃ scope, State.report s e = State.resetBy v scope) := by
  cases e with
  | nothing => exact ⟨s, .refl, .inl rfl⟩
  | reply =>
    show ∃ v, ReportOps s v ∧ (State.replyComplete s = v ∨ ∃ scope, State.replyComplete s = State.resetBy v scope)
    unfold State.replyComplete
    dsimp only
    split
    · split
      · exact ⟨_, .single .replyLeft, .inr ⟨_, rfl⟩⟩
      · exact ⟨_, .trans (.single .replyLeft) (State.take_reportOps _), .inl rfl⟩
    · exact ⟨_, .trans (.single .replyLeft) (State.take_reportOps _), .inl rfl⟩
  | notification c q => exact ⟨_, .single (.notified c q), .inl rfl⟩
  | forwarded n =>
    show ∃ v, ReportOps s v ∧ (State.forwardedReport s n = v ∨ ∃ scope, State.forwardedReport s n = State.resetBy v scope)
    unfold State.forwardedReport
    split
    · split
      · exact ⟨s, .refl, .inr ⟨_, rfl⟩⟩
      · exact ⟨_, .single (.requestsMarked n), .inl rfl⟩
    · exact ⟨_, .single (.requestsMarked n), .inl rfl⟩

/-- After a reset no reset is pending (R150). -/
theorem State.boundaryReset_resetBy (s : State) (scope : ResetScope) :
    State.boundaryReset (State.resetBy s scope) = State.resetBy s scope := by
  cases scope <;> rfl

theorem State.boundaryReset_cases (s : State) :
    State.boundaryReset s = s ∨ ∃ scope, State.boundaryReset s = State.resetBy s scope := by
  unfold State.boundaryReset
  split
  · split
    · exact .inr ⟨_, rfl⟩
    · exact .inl rfl
  · exact .inl rfl

/-- The node with its emitted frame, if any, complete and past, before what the frame ends is reported (R127). -/
def State.frameLeft (s : State) : State :=
  { State.finishPayload s with ringOut := { (State.finishPayload s).ringOut with current := none } }

/-- Without a frame in progress there is no payload to complete. -/
theorem State.finishPayload_of_none {s : State} (h : s.ringOut.current = none) : State.finishPayload s = s := by
  simp only [State.finishPayload, h]

theorem State.frameLeft_of_none {s : State} (h : s.ringOut.current = none) : State.frameLeft s = s := by
  rw [State.frameLeft, State.finishPayload_of_none h, ← h]

theorem State.endFrame_of_none {s : State} (h : s.ringOut.current = none) : State.endFrame s = State.boundaryReset s := by
  simp only [State.endFrame, h]

theorem State.endFrame_of_some {s : State} {e : Emission} (h : s.ringOut.current = some e) :
    State.endFrame s = State.boundaryReset (State.report (State.frameLeft s) e.ends) := by
  simp only [State.endFrame, h]
  rfl

/-- What the end of an emitted frame does: the frame is complete, the reports follow, and perhaps one reset (R127, R144). -/
theorem State.endFrame_cases (s : State) :
    ∃ v, ReportOps (State.frameLeft s) v ∧
      (State.endFrame s = v ∨ ∃ scope, State.endFrame s = State.resetBy v scope) := by
  cases hc : s.ringOut.current with
  | none =>
    rw [State.endFrame_of_none hc, State.frameLeft_of_none hc]
    exact ⟨s, .refl, State.boundaryReset_cases s⟩
  | some e =>
    rw [State.endFrame_of_some hc]
    obtain ⟨v, hops, heq | ⟨scope, heq⟩⟩ := State.report_cases (State.frameLeft s) e.ends
    · rw [heq]
      exact ⟨v, hops, State.boundaryReset_cases v⟩
    · rw [heq, State.boundaryReset_resetBy]
      exact ⟨v, hops, .inr ⟨scope, rfl⟩⟩

theorem ReportOp.leaves {fires : Prop} {s t : State} (h : ReportOp s t) : State.Leaves fires s t := by
  cases h with
  | request _ hop => exact hop.leaves
  | _ => exact {}

theorem ReportOps.leaves {fires : Prop} {s t : State} (h : ReportOps s t) : State.Leaves fires s t :=
  kept_of_ops h (fun _ _ hop hk => hk.trans hop.leaves) (.refl s)

/-- After its end no frame is in progress. -/
theorem State.endFrame_current (s : State) : (State.endFrame s).ringOut.current = none := by
  obtain ⟨v, hops, hend⟩ := State.endFrame_cases s
  have hv : v.ringOut.current = none := (ReportOps.leaves (fires := False) hops).current
  obtain he | ⟨scope, he⟩ := hend
  · rw [he, hv]
  · rw [he]
    cases scope
    · rfl
    · exact hv

/-! ### The arbiter's open choice (R124, log entry 28) -/

theorem State.choiceSound_of_none {s : State} (h : s.service.openChoice = none) : State.ChoiceSound s :=
  fun _ hne => absurd h hne

theorem State.settleChoice_openChoice (s : State) : (State.settleChoice s).service.openChoice = none := by
  rw [State.settleChoice_frame]

/-- The completion of a payload settles the choice of its frame (R124). -/
theorem State.finishPayload_choice (s : State) (h : State.ChoiceSound s) (hr : s.resetN = true) :
    (State.finishPayload s).service.openChoice = none := by
  have hclosed (hp : RingOut.payloadOpen s.ringOut = false) : s.service.openChoice = none := by
    by_contra hne
    exact nomatch hp.symm.trans (h hr hne)
  unfold State.finishPayload
  split
  · next e he =>
    split
    · next hdone => exact hclosed (by simp [RingOut.payloadOpen, he, hdone])
    · dsimp only
      rw [State.writeDrop_fields]
      exact State.settleChoice_openChoice _
  · next he => exact hclosed (by simp [RingOut.payloadOpen, he])

theorem State.endFrame_choice (s : State) (h : State.ChoiceSound s) (hr : s.resetN = true) :
    (State.endFrame s).service.openChoice = none := by
  obtain ⟨v, hops, hend⟩ := State.endFrame_cases s
  have hv : v.service.openChoice = none :=
    (ReportOps.leaves (fires := False) hops).openChoice.trans (State.finishPayload_choice s h hr)
  obtain he | ⟨scope, he⟩ := hend
  · rw [he, hv]
  · rw [he]
    cases scope <;> rfl

/-- Operations that leave the choice and the frame in progress keep the condition. -/
theorem State.Leaves.choiceSound {fires : Prop} {s t : State} (h : State.Leaves fires s t) (hs : State.ChoiceSound s) :
    State.ChoiceSound t := by
  intro hr hne
  have hopen := hs (h.resetN ▸ hr) (h.openChoice ▸ hne)
  rw [RingOut.payloadOpen, h.current]
  exact hopen

/-- A frame that has just begun has its payload open. -/
theorem State.emit_payloadOpen (s : State) (f : FrameSource) : RingOut.payloadOpen (State.emit s f).ringOut = true := rfl

theorem Ran.choiceSound {s t : State} {c : Instr} (h : Ran s c t) (hs : State.ChoiceSound s) : State.ChoiceSound t := by
  have hports {u : State} (hres : u.resetN = s.resetN) (hopen : u.service.openChoice = s.service.openChoice)
      (hcur : u.ringOut.current = s.ringOut.current) : State.ChoiceSound u := by
    intro hr hne
    have := hs (hres ▸ hr) (hopen ▸ hne)
    rwa [RingOut.payloadOpen, hcur]
  cases h with
  | stays c => exact hs
  | poweredOn high carrier => exact State.choiceSound_of_none rfl
  | held => exact nofun
  | released carrier hr => exact State.choiceSound_of_none rfl
  | signalLost hr hn ha => exact hs
  | alignmentLost hr ha =>
    refine hports ?_ ?_ ?_
    · rw [State.leaveAligned_frame]; rfl
    · exact ((State.abortCounted_leaves (fires := False) _).openChoice)
    · rw [State.leaveAligned_frame]; rfl
  | signalBack hr ha => exact hs
  | hunted candidate hr ha =>
    have hframe := State.huntFor_frame s candidate
    rw [hframe]
    exact hs
  | confirmed f hr ha =>
    have hframe := State.confirmWith_frame s f
    rw [hframe]
    exact hs
  | classified c f hc hr ha =>
    have htaken : (State.taken s f).service.openChoice = none := by
      rw [State.taken_frame]; exact State.settleChoice_openChoice s
    have hhanded : (State.handedOn s f).service.openChoice = none := (State.handedOn_leaves s f).openChoice.trans htaken
    refine State.choiceSound_of_none ?_
    rw [State.classify_eq]
    split
    · exact hhanded
    · rw [State.judgeQuality_openChoice, hhanded]
  | substituteBegan hr hm => exact fun _ _ => State.emit_payloadOpen _ _
  | forwardedBegan copy rest hr hc => exact fun _ _ => State.emit_payloadOpen _ _
  | payloadCompleted hr => exact State.choiceSound_of_none (State.finishPayload_choice s hs hr)
  | frameEnded c hc hr => exact State.choiceSound_of_none (State.endFrame_choice s hs hr)
  | forwardedReported n hr hm =>
    obtain ⟨v, hops, he | ⟨scope, he⟩⟩ := State.report_cases s (.forwarded n)
    · have he : State.forwardedReport s n = v := he
      rw [he]
      exact (ReportOps.leaves (fires := False) hops).choiceSound hs
    · have he : State.forwardedReport s n = State.resetBy v scope := he
      rw [he]
      cases scope <;> exact State.choiceSound_of_none rfl
  | localFrameBegan hr hm hd => rw [State.beginLocalFrame_frame]; exact hs
  | externalStarted hr hm => rw [State.externalStart_frame]; exact hs
  | localFrameCompleted add hr => rw [State.completeLocalFrame_frame]; exact hs
  | localTimingLost hr hd =>
    rw [State.watchdogShare_frame]
    exact State.choiceSound_of_none (State.endFrame_choice s hs hr)
  | expired cls hr hd => exact hs
  | requestTaken hr => exact (State.take_leaves (fires := False) s).choiceSound hs
  | delivered c d op params hc =>
    exact (RequestOps.leaves (fires := False) (State.deliver_ops s d op params)).choiceSound hs

end Sys2Proof.Machine

/-! SUPPORT. The resets (spec/11): the hardware values, what the active bank is after every command, and the settlement of the
statements about the machine, its resets and the open choice. -/

namespace Sys2Proof.Machine

set_option Elab.async false

/-! ### Hardware values (R184, R189) -/

/-- The hardware values with an address, an emission and a level of RESET_N. -/
theorem State.hardware_atHardware (carrier b : Bool) (choices : Nat) (waiting : List Instr) (a : Option (BitVec 6))
    (e : InEmission) :
    State.AtHardware
      { State.hardware carrier choices waiting with
        resetN := b, engine := Engine.cleared a, service := { ServiceChannel.hardware with emission := e } } carrier a := by
  refine ⟨rfl, ⟨rfl, rfl, rfl, rfl, rfl, rfl, rfl, rfl, rfl, rfl, rfl, rfl, rfl⟩, ⟨?bank, rfl, rfl⟩, ?lastGood, ?port, ?watches,
    ⟨rfl, rfl, rfl, rfl, rfl⟩, rfl, ?rest, ?setup, ?counters⟩
  case bank => intro x; simp [State.hardware, MapStore.hardware, passBank]
  case lastGood => intro c; simp [State.hardware, lastGoodHardware]
  case port => exact ⟨rfl, rfl, rfl, rfl, rfl, rfl, rfl, rfl⟩
  case watches =>
    show ∀ i : WatchId, Watch.AtHardware watchesHardware[i]
    decide +kernel
  case rest =>
    show EventUnit.AtRest EventUnit.hardware
    decide +kernel
  case setup =>
    show EventUnit.DefaultSetup EventUnit.hardware
    decide +kernel
  case counters =>
    show ∀ k : CounterName, countersHardware[k.index] = 0#16
    intro k
    cases k <;> rfl

theorem State.released_atHardware (s : State) (carrier b : Bool) :
    State.AtHardware { State.released s carrier with resetN := b } carrier none :=
  State.hardware_atHardware carrier b s.choices s.pending none .nothing

theorem State.coldReset_atHardware (s : State) : State.AtHardware (State.coldReset s) s.aligner.carrier s.engine.address :=
  State.hardware_atHardware s.aligner.carrier s.resetN s.choices s.pending s.engine.address _

/-! ### The active bank (R36, R63) -/

/-- The active bank of `t` is that of `s`, by letter and by contents. -/
def State.SameBank (s t : State) : Prop :=
  t.mapStore.active = s.mapStore.active ∧ MapStore.activeBank t.mapStore = MapStore.activeBank s.mapStore

theorem State.SameBank.of_mapStore {s t : State} (h : t.mapStore = s.mapStore) : State.SameBank s t := by
  rw [State.SameBank, h]
  exact ⟨rfl, rfl⟩

theorem State.SameBank.trans {s t u : State} (h : State.SameBank s t) (h' : State.SameBank t u) : State.SameBank s u :=
  ⟨h'.1.trans h.1, h'.2.trans h.2⟩

theorem State.Leaves.sameBank {s t : State} (h : State.Leaves False s t) : State.SameBank s t :=
  h.bank.resolve_left id

theorem MapStore.warm_active (m : MapStore) :
    (MapStore.warm m).active = m.active ∧ MapStore.activeBank (MapStore.warm m) = MapStore.activeBank m := by
  unfold MapStore.warm
  split <;> exact ⟨rfl, rfl⟩

/-- A reset is cold or leaves the active bank (R54, R189). -/
theorem State.resetBy_bank (s : State) (scope : ResetScope) :
    State.resetBy s scope = State.coldReset s ∨ State.SameBank s (State.resetBy s scope) := by
  cases scope
  · exact .inl rfl
  · exact .inr (MapStore.warm_active s.mapStore)

theorem State.report_bank (s : State) (e : SegmentEnd) :
    (∃ x, State.report s e = State.coldReset x) ∨ State.SameBank s (State.report s e) := by
  obtain ⟨v, hops, he | ⟨scope, he⟩⟩ := State.report_cases s e
  · exact .inr (he ▸ (ReportOps.leaves hops).sameBank)
  · rw [he]
    obtain hcold | hsame := State.resetBy_bank v scope
    · exact .inl ⟨v, hcold⟩
    · exact .inr ((ReportOps.leaves hops).sameBank.trans hsame)

theorem State.endFrame_bank (s : State) :
    (∃ x, State.endFrame s = State.coldReset x) ∨ State.SameBank s (State.endFrame s) := by
  have hleft : State.SameBank s (State.frameLeft s) := .of_mapStore (by rw [State.frameLeft, State.finishPayload_frame])
  obtain ⟨v, hops, he | ⟨scope, he⟩⟩ := State.endFrame_cases s
  · exact .inr (he ▸ hleft.trans (ReportOps.leaves hops).sameBank)
  · rw [he]
    obtain hcold | hsame := State.resetBy_bank v scope
    · exact .inl ⟨v, hcold⟩
    · exact .inr (hleft.trans ((ReportOps.leaves hops).sameBank.trans hsame))

theorem State.emit_sameBank (s : State) (f : FrameSource) : State.SameBank s (State.emit s f) :=
  .of_mapStore (by rw [State.emit_frame])

theorem State.beginSubstitute_sameBank (s : State) : State.SameBank s (State.beginSubstitute s) :=
  .trans (t := State.steppedForSubstitute s) (.of_mapStore rfl) (State.emit_sameBank _ _)

theorem State.beginForwarded_sameBank (s : State) (c : Copy) (rest : List Copy) :
    State.SameBank s (State.beginForwarded s c rest) :=
  .trans (t := { s with ringOut := { s.ringOut with copies := rest } }) (.of_mapStore rfl) (State.emit_sameBank _ _)

/-- A frame changes the active bank only at a superframe start with valid ring time (R62, R63). -/
theorem State.classify_bank (s : State) (f : Frame) :
    (State.ringTimeOf s f = true ∧ (successor s.aligner.flywheel).index = 0#4) ∨ State.SameBank s (State.classify s f) := by
  have htaken : State.SameBank s (State.taken s f) :=
    .of_mapStore (by rw [State.taken_frame, State.settleChoice_frame])
  obtain hfires | hsame := (State.handedOn_leaves s f).bank
  · rw [Bool.and_eq_true] at hfires
    exact .inl ⟨hfires.1, of_decide_eq_true hfires.2⟩
  · have hhanded : State.SameBank s (State.handedOn s f) := htaken.trans hsame
    refine .inr ?_
    rw [State.classify_eq]
    split
    · exact hhanded
    · exact hhanded.trans (.of_mapStore (by rw [State.judgeQuality_frame]))

/-- A cold reset has nothing in emission, so that the end of a frame changes nothing behind it. -/
theorem State.endFrame_coldReset (s : State) : State.endFrame (State.coldReset s) = State.coldReset s :=
  (State.endFrame_of_none rfl).trans (State.boundaryReset_resetBy s .cold)

theorem State.exec_substitute {s : State} (hr : s.resetN = true) (hm : State.substituteMayStart (State.endFrame s) = true) :
    exec .substituteFrameStart s = .next (State.beginSubstitute (State.endFrame s)) :=
  takenWhen_next hr hm _

end Sys2Proof.Machine

namespace Sys2Proof.Proofs

open Sys2Proof Sys2Proof.Machine

set_option Elab.async false

/-- Settles O52. -/
theorem serviceChannelStaysSound : Obligations.ServiceChannelStaysSound := by
  intro s t h
  refine ⟨?_, fun hs => ?_⟩
  · obtain ⟨_, hk⟩ := step_sound h
    exact hk.service
  · obtain ⟨-, rfl⟩ | ⟨c, rest, -, hx⟩ := step_cases h
    · exact hs
    · exact (ran_of_exec hx).choiceSound hs

/-- Settles O15: the Map Store tests a schedule at a superframe start with valid ring time alone, and a cold reset is the only
other operation that writes the active bank. -/
theorem activeBankChangesOnlyAtASwapOrReset : Obligations.ActiveBankChangesOnlyAtASwapOrReset := by
  intro c s t h hchanged
  have hmoved : ¬State.SameBank s t := fun ⟨hactive, hbank⟩ => hchanged.elim (· hactive) (· hbank)
  have hleaves {u : State} (h : State.Leaves False s u) : t ≠ u := fun he => hmoved (he ▸ h.sameBank)
  cases ran_of_exec h with
  | stays c => exact absurd (.of_mapStore rfl) hmoved
  | poweredOn high carrier =>
    exact .inl ⟨_, carrier, none, State.released_atHardware s carrier high, .inl ⟨rfl, .inl ⟨high, rfl⟩⟩⟩
  | held => exact absurd (.of_mapStore rfl) hmoved
  | released carrier hr =>
    exact .inl ⟨_, carrier, none, State.released_atHardware s carrier true, .inl ⟨rfl, .inr (.inl rfl)⟩⟩
  | signalLost hr hn ha => exact absurd (.of_mapStore rfl) hmoved
  | alignmentLost hr ha => exact absurd (.of_mapStore (by rw [State.leaveAligned_frame]; rfl)) hmoved
  | signalBack hr ha => exact absurd (.of_mapStore rfl) hmoved
  | hunted candidate hr ha => exact absurd (.of_mapStore (by rw [State.huntFor_frame])) hmoved
  | confirmed f hr ha => exact absurd (.of_mapStore (by rw [State.confirmWith_frame])) hmoved
  | classified c f hc hr ha =>
    obtain ⟨hring, hstart⟩ | hsame := State.classify_bank s f
    · obtain ⟨hgood, huf⟩ := (ringTimeValid_iff _ _).1 hring
      obtain ⟨hsync, hcheck, hnumber⟩ := (frameClass_good_iff _ _).1 hgood
      exact .inr ⟨f, hc, hr, ha, hsync, hcheck, hnumber, hnumber ▸ hstart, huf⟩
    · exact absurd hsame hmoved
  | substituteBegan hr hm =>
    obtain ⟨x, hcold⟩ | hsame := State.endFrame_bank s
    · refine .inl ⟨State.coldReset x, _, _, State.coldReset_atHardware x, .inr ⟨rfl, ?_⟩⟩
      rw [hcold] at hm ⊢
      have hr' : (State.coldReset x).resetN = true := by
        simp only [State.substituteMayStart, Bool.and_eq_true] at hm
        exact hm.1.1
      have hend := State.endFrame_coldReset x
      have hexec := State.exec_substitute hr' (by rwa [hend])
      rwa [hend] at hexec
    · exact absurd (hsame.trans (State.beginSubstitute_sameBank _)) hmoved
  | forwardedBegan copy rest hr hcopies =>
    obtain ⟨x, hcold⟩ | hsame := State.endFrame_bank s
    · rw [hcold] at hcopies
      cases hcopies
    · exact absurd (hsame.trans (State.beginForwarded_sameBank _ _ _)) hmoved
  | payloadCompleted hr => exact absurd (.of_mapStore (by rw [State.finishPayload_frame])) hmoved
  | frameEnded c hc hr =>
    obtain ⟨x, hcold⟩ | hsame := State.endFrame_bank s
    · refine .inl ⟨State.coldReset x, _, _, State.coldReset_atHardware x, .inl ⟨hcold, ?_⟩⟩
      exact .inr (.inr hc)
    · exact absurd hsame hmoved
  | forwardedReported n hr hm =>
    obtain ⟨x, hcold⟩ | hsame := State.report_bank s (.forwarded n)
    · exact .inl ⟨State.coldReset x, _, _, State.coldReset_atHardware x, .inl ⟨hcold, .inr (.inr (.inr (.inl ⟨n, rfl⟩)))⟩⟩
    · exact absurd hsame hmoved
  | localFrameBegan hr hm hd => exact absurd (.of_mapStore (by rw [State.beginLocalFrame_frame])) hmoved
  | externalStarted hr hm => exact absurd (.of_mapStore (by rw [State.externalStart_frame])) hmoved
  | localFrameCompleted add hr => exact absurd (.of_mapStore (by rw [State.completeLocalFrame_frame])) hmoved
  | localTimingLost hr hd =>
    obtain ⟨x, hcold⟩ | hsame := State.endFrame_bank s
    · rw [hcold] at hd
      cases hd
    · exact absurd (hsame.trans (.of_mapStore (by rw [State.watchdogShare_frame]))) hmoved
  | expired cls hr hd => exact absurd (.of_mapStore rfl) hmoved
  | requestTaken hr => exact absurd rfl (hleaves (State.take_leaves s))
  | delivered c d op params hc => exact absurd rfl (hleaves (RequestOps.leaves (State.deliver_ops s d op params)))

/-- Settles O1. -/
theorem stepRunsTheFrontCommand : Obligations.StepRunsTheFrontCommand := by
  refine ⟨fun s c rest hp => ?_, fun s hp => ?_⟩
  · simp only [step, hp]
  · simp only [step, hp]

/-- Settles O3. -/
theorem resetIsARelease : Obligations.ResetIsARelease := by
  refine ⟨fun s hr => ?_, State.released_atHardware State.reset false true, rfl, rfl⟩
  show Host.Outcome.next (if s.resetN then _ else _) = _
  rw [hr]
  rfl

/-- Settles O4. -/
theorem hardwareResetValues : Obligations.HardwareResetValues := by
  refine fun s carrier => ⟨fun high => ?_, fun hr => ?_, fun hr => ?_⟩
  · exact ⟨_, rfl, rfl, State.released_atHardware s carrier high, rfl⟩
  · refine ⟨State.released s carrier, ?_, rfl, State.released_atHardware s carrier true, rfl⟩
    show Host.Outcome.next (if s.resetN then _ else _) = _
    rw [hr]
    rfl
  · show Host.Outcome.next (if s.resetN then _ else _) = _
    rw [if_pos hr]

end Sys2Proof.Proofs

/-! SUPPORT. The held node and the resets that a request asked for (R11, R149, R187 to R190). -/

namespace Sys2Proof.Machine

set_option Elab.async false

/-- A held node takes no request (R184). -/
theorem State.deliver_held {s : State} (hr : s.resetN = false) (d : Delivery) (op : Operation) (params : List Octet) :
    State.deliver s d op params = s := by
  simp [State.deliver, hr]

/-- While RESET_N is low a command acts only if it is one of the reset itself (R184). -/
theorem Ran.of_held {s t : State} {c : Instr} (h : Ran s c t) (hr : s.resetN = false) (hc : ¬Instr.startsNode c)
    (ha : c ≠ .hardwareResetAssert) : t = s := by
  have hlow {p : Prop} (h : s.resetN = true) : p := absurd (h.symm.trans hr) (by decide)
  cases h with
  | stays c => rfl
  | poweredOn high carrier => exact absurd (.inl ⟨high, carrier, rfl⟩) hc
  | held => exact absurd rfl ha
  | released carrier => exact absurd (.inr ⟨carrier, rfl⟩) hc
  | delivered c d op params hc => exact State.deliver_held hr d op params
  | signalLost h | alignmentLost h | signalBack h | hunted _ h | confirmed _ h | classified _ _ _ h | substituteBegan h
  | forwardedBegan _ _ h | payloadCompleted h | frameEnded _ _ h | forwardedReported _ h | localFrameBegan h
  | externalStarted h | localFrameCompleted _ h | localTimingLost h | expired _ h | requestTaken h => exact hlow h

/-! ### The end of a frame whose payload is complete -/

section
variable {s : State} {e : Emission}

theorem State.finishPayload_of_done (hc : s.ringOut.current = some e) (hd : e.payloadDone = true) :
    State.finishPayload s = s := by
  simp only [State.finishPayload, hc, hd, if_true]

theorem State.frameLeft_of_done (hc : s.ringOut.current = some e) (hd : e.payloadDone = true) :
    State.frameLeft s = { s with ringOut := { s.ringOut with current := none } } := by
  rw [State.frameLeft, State.finishPayload_of_done hc hd]

theorem State.endFrame_of_done (hc : s.ringOut.current = some e) (hd : e.payloadDone = true) :
    State.endFrame s =
      State.boundaryReset (State.report { s with ringOut := { s.ringOut with current := none } } e.ends) := by
  rw [State.endFrame_of_some hc, State.frameLeft_of_done hc hd]

theorem State.carriesOwnEnd_reply (hc : s.ringOut.current = some e) (he : e.ends = .reply) :
    State.carriesOwnEnd s = true := by
  simp only [State.carriesOwnEnd, hc, he]

theorem State.carriesForwardedEnd_same {n : Nat} (hc : s.ringOut.current = some e) (he : e.ends = .forwarded n) :
    State.carriesForwardedEnd s n = true := by
  simp only [State.carriesForwardedEnd, hc, he, decide_true]

/-- The report of a reset reply lets the pending reset take effect (R187). -/
theorem State.replyComplete_reset {r : Reply} {p : PendingReset} (hf : s.engine.replies.find? (·.begun) = some r)
    (hr : r.isReset = true) (hp : s.engine.resetPending = some p) :
    State.replyComplete s =
      State.resetBy { s with engine := { s.engine with replies := s.engine.replies.eraseP (·.begun) } } p.scope := by
  simp only [State.replyComplete, hf, hp, hr, if_true]

end

/-- OWN_PACKET_COMPLETE of a reset reply: the pending reset takes effect (R187). -/
theorem exec_resetReply {s : State} {e : Emission} {r : Reply} {p : PendingReset} (hr : s.resetN = true)
    (hc : s.ringOut.current = some e) (he : e.ends = .reply) (hd : e.payloadDone = true)
    (hf : s.engine.replies.find? (·.begun) = some r) (hreset : r.isReset = true) (hp : s.engine.resetPending = some p) :
    exec .ownPacketComplete s = .next (State.resetBy
      { s with
        ringOut := { s.ringOut with current := none }
        engine := { s.engine with replies := s.engine.replies.eraseP (·.begun) } } p.scope) := by
  refine (takenWhen_next hr (State.carriesOwnEnd_reply hc he) _).trans (congrArg _ ?_)
  rw [State.endFrame_of_done hc hd, he]
  show State.boundaryReset (State.replyComplete _) = _
  rw [State.replyComplete_reset (s := { s with ringOut := { s.ringOut with current := none } }) hf hreset hp,
    State.boundaryReset_resetBy]

/-- A request's class with its forwarded flag set (R144). -/
theorem Request.markForwarded_eq (n : Nat) (r : Request) :
    Request.markForwarded n r = { r with cls := match r.cls with
      | .broadcast m f => .broadcast m (f || decide (m = n))
      | .addressed => .addressed } := by
  obtain ⟨packet, cls, superframe, ringTime⟩ := r
  cases cls <;> rfl

theorem MapStore.warm_eq (m : MapStore) :
    MapStore.warm m = { m with
      shadow := match m.shadow with | .pending _ => .checked | .checked => .checked | .editable => .editable } := by
  obtain ⟨bankA, bankB, active, shadow⟩ := m
  cases shadow <;> rfl

/-- A reset that waits for the boundary takes effect at one with no packet in emission (R144). -/
theorem State.boundaryReset_fires {s : State} {p : PendingReset} (hp : s.engine.resetPending = some p)
    (hm : p.moment = .boundary) (he : s.service.emission = .nothing) : State.boundaryReset s = State.resetBy s p.scope := by
  simp only [State.boundaryReset, hp, hm, he, and_self, if_true]

theorem State.boundaryReset_waits {s : State}
    (h : ∀ p, s.engine.resetPending = some p → p.moment = .boundary → s.service.emission ≠ .nothing) :
    State.boundaryReset s = s := by
  unfold State.boundaryReset
  split
  · next p hp => exact if_neg fun ⟨hm, he⟩ => h p hp hm he
  · rfl

theorem State.forwardedReport_fires {s : State} {n : Nat} {scope : ResetScope}
    (hp : s.engine.resetPending = some ⟨scope, .endForwarded n⟩) : State.forwardedReport s n = State.resetBy s scope := by
  simp only [State.forwardedReport, hp, if_true]

theorem State.forwardedReport_marks {s : State} (n : Nat) (hp : s.engine.resetPending = none) :
    State.forwardedReport s n =
      { s with engine := { s.engine with requests := s.engine.requests.map (Request.markForwarded n) } } := by
  simp only [State.forwardedReport, hp]

end Sys2Proof.Machine

namespace Sys2Proof.Proofs

open Sys2Proof Sys2Proof.Machine

set_option Elab.async false

/-- Settles O5. -/
theorem heldNodeTakesNothing : Obligations.HeldNodeTakesNothing := by
  refine fun s => ⟨⟨State.heldInReset s, rfl, rfl, rfl, rfl, fun j => rfl⟩, fun hr c hpower hrelease hassert => ?_⟩
  obtain ⟨t, ht⟩ := exec_total c s
  have hstart : ¬Instr.startsNode c := by
    rintro (⟨high, carrier, hc⟩ | ⟨carrier, hc⟩)
    · exact hpower high carrier hc
    · exact hrelease carrier hc
  rw [ht, (ran_of_exec ht).of_held hr hstart hassert]

/-- Settles O6. -/
theorem addressedResetTakesEffect : Obligations.AddressedResetTakesEffect := by
  intro s e r moment hr hc he hd hf hreset
  refine ⟨fun hp => ⟨_, exec_resetReply hr hc he hd hf hreset hp, hr, State.coldReset_atHardware _, fun hn => if_pos hn⟩,
    fun hp => ⟨_, exec_resetReply hr hc he hd hf hreset hp, ?_, ?_⟩⟩
  · refine ⟨rfl, fun c => ?_, rfl, rfl, rfl, rfl, rfl⟩
    simp [State.resetBy, State.warmReset, EventUnit.cleared]
  · simp only [State.resetBy, State.warmReset, MapStore.warm_eq]
    rfl

/-- Settles O7. -/
theorem broadcastResetTakesEffect : Obligations.BroadcastResetTakesEffect := by
  intro s e scope n hr hc hd
  have hboundary := takenWhen_next hr rfl (State.endFrame s)
  have hreport (he : e.ends = .forwarded n) : exec (.forwardedEndReport n) s = .next (State.endFrame s) := by
    have hcarries := State.carriesForwardedEnd_same hc he
    refine (takenWhen_next hr (by rw [hcarries, Bool.true_or]) _).trans (congrArg _ ?_)
    rw [if_pos hcarries]
  refine ⟨fun he hp => ?_, fun he hp => ?_, fun he hp hidle => ?_, fun he hwait => ?_⟩
  · rw [hreport he, State.endFrame_of_done hc hd, he]
    refine congrArg _ (.trans (congrArg State.boundaryReset (State.forwardedReport_fires (scope := scope) ?_)) ?_)
    · exact hp
    · exact State.boundaryReset_resetBy _ scope
  · rw [hreport he, State.endFrame_of_done hc hd, he]
    refine congrArg _ (.trans (congrArg State.boundaryReset (State.forwardedReport_marks n ?_)) ?_)
    · exact hp
    · rw [funext (Request.markForwarded_eq n)]
      exact State.boundaryReset_waits fun p h => (nomatch hp.symm.trans h)
  · refine hboundary.trans (congrArg _ ?_)
    rw [State.endFrame_of_done hc hd, he]
    exact State.boundaryReset_fires (p := ⟨scope, .boundary⟩) hp rfl hidle
  · refine hboundary.trans (congrArg _ ?_)
    rw [State.endFrame_of_done hc hd, he]
    exact State.boundaryReset_waits hwait

end Sys2Proof.Proofs

/-! SUPPORT. The aligner's ranges (R14 to R24) and the steady stores of FOLLOW (R75, R84) over every command. -/

namespace Sys2Proof.Machine

set_option Elab.async false

/-! ### The aligner's ranges -/

/-- The condition speaks of the aligner and of the mark that the next frame has a copy alone. -/
theorem State.AlignerSound.congr {s t : State} (h : State.AlignerSound s) (ha : t.aligner = s.aligner)
    (hc : t.ringOut.copyArriving = s.ringOut.copyArriving) : State.AlignerSound t := by
  rw [State.AlignerSound, ha, hc]
  exact h

/-- The settings of the aligner may change within their ranges (R146). -/
theorem State.Leaves.alignerSound {fires : Prop} {s t : State} (h : State.Leaves fires s t) (hs : State.AlignerSound s) :
    State.AlignerSound t := by
  obtain ⟨hbad, hconfirm, hthreshold, hwindow, houtside, hidle, hunder, hkept, hrest⟩ := hs
  rw [State.AlignerSound, h.copyArriving, h.aligner]
  exact ⟨hbad, hconfirm, h.threshold hthreshold, hwindow, houtside, hidle, hunder, hkept, hrest⟩

/-- Outside ALIGNED and CONFIRM with the counts at 0 (R14, R20). -/
theorem State.alignerSound_of_cleared {s : State} (a : Aligner) {st : AlignState}
    (ha : s.aligner = Aligner.countsCleared a st) (ht : a.threshold ≤ 1023) (hc : s.ringOut.copyArriving = false)
    (hst : st = .hunt ∧ a.carrier = true ∨ st = .noSignal ∧ a.carrier = false) : State.AlignerSound s := by
  rw [State.AlignerSound, ha]
  obtain ⟨rfl, hcarrier⟩ | ⟨rfl, hcarrier⟩ := hst <;> simp [Aligner.countsCleared, hc, ht, hcarrier]

/-- The bits behind an accepted candidate are those kept but its own at least (R18). -/
theorem searchKept_behind {bs : List Bool} {f : Frame} {behind : List Bool} (h : searchKept bs = some (f, behind)) :
    behind.length + 1240 ≤ bs.length := by
  induction bs with
  | nil => cases h
  | cons b bs ih =>
    unfold searchKept at h
    split at h
    · next hpass =>
      cases h
      simp only [Bool.and_eq_true, decide_eq_true_eq] at hpass
      rw [List.length_drop]
      omega
    · have := ih h
      rw [List.length_cons]
      omega

/-- A candidate accepted in HUNT with so many bits behind it (R16, R18). -/
theorem State.acceptCandidate_alignerSound {s : State} (h : State.AlignerSound s) (ha : s.aligner.align = .hunt) (f : Frame)
    {behind : List Bool} (hb : behind.length + 1240 < 3720) : State.AlignerSound (State.acceptCandidate s f behind) := by
  obtain ⟨hbad, hconfirm, hthreshold, hwindow, houtside, hidle, hunder, hkept, hempty, hcarrier⟩ := h
  obtain ⟨hzero, hwindowZero, hreported, harriving⟩ := houtside (by rw [ha]; decide)
  have hlive : s.aligner.carrier ≠ false := fun hc => by
    have := hcarrier.2 hc
    rw [ha] at this
    cases this
  refine ⟨hbad, Nat.zero_le _, hthreshold, nofun, fun _ => ⟨hzero, hwindowZero, hreported, harriving⟩,
    fun hne => absurd rfl hne, fun _ => rfl, by simpa [State.acceptCandidate] using hb, fun _ hne => absurd rfl hne, ?_⟩
  exact ⟨nofun, fun hc => absurd hc hlive⟩

theorem State.huntFor_alignerSound {s : State} (h : State.AlignerSound s) (ha : s.aligner.align = .hunt)
    (candidate : Option Frame) : State.AlignerSound (State.huntFor s candidate) := by
  have hemptied : State.AlignerSound { s with aligner := { s.aligner with keptBits := [] } } := by
    obtain ⟨hbad, hconfirm, hthreshold, hwindow, houtside, hidle, hunder, hkept, hempty, hcarrier⟩ := h
    exact ⟨hbad, hconfirm, hthreshold, hwindow, houtside, hidle, hunder, (Nat.add_le_add_right (Nat.zero_le _) _).trans_lt hkept,
      fun _ _ => rfl, hcarrier⟩
  unfold State.huntFor
  split
  · next f behind hfound =>
    have := searchKept_behind hfound
    have hkept := h.2.2.2.2.2.2.2.1
    exact State.acceptCandidate_alignerSound h ha f (by omega)
  · dsimp only
    split
    · split
      · exact State.acceptCandidate_alignerSound hemptied ha _ (by simp)
      · exact hemptied
    · exact hemptied

theorem length_flatMap_bits (fs : List Frame) : (fs.flatMap Frame.bits).length = 1240 * fs.length := by
  induction fs with
  | nil => rfl
  | cons f fs ih => rw [List.flatMap_cons, List.length_append, ih, Frame.length_bits, List.length_cons]; omega

theorem State.confirmWith_alignerSound {s : State} (h : State.AlignerSound s) (ha : s.aligner.align = .confirm) (f : Frame) :
    State.AlignerSound (State.confirmWith s f) := by
  obtain ⟨hbad, hconfirm, hthreshold, hwindow, houtside, hidle, hunder, hkept, hempty, hcarrier⟩ := h
  have hlength := hunder ha
  obtain ⟨hzero, hwindowZero, hreported, harriving⟩ := houtside (by rw [ha]; decide)
  have hlive : s.aligner.carrier = true := by
    by_contra hc
    have := hcarrier.2 (by simpa using hc)
    rw [ha] at this
    cases this
  unfold State.confirmWith State.testFrame
  split
  · split
    · refine ⟨Nat.zero_le _, Nat.zero_le _, hthreshold, fun _ => Nat.zero_le _, fun hne => absurd rfl hne,
        fun _ => ⟨rfl, rfl⟩, nofun, Nat.zero_lt_succ _, fun _ _ => rfl, nofun, fun hc => ?_⟩
      exact nomatch hlive.symm.trans hc
    · refine ⟨hbad, le_rfl, hthreshold, fun hal => (nomatch ha.symm.trans hal),
        fun _ => ⟨hzero, hwindowZero, hreported, harriving⟩, fun hne => absurd ha hne, fun _ => ?_, ?_,
        fun _ hne => absurd ha hne, hcarrier⟩
      · show (s.aligner.underTest ++ [_]).length = 1 + 1
        rw [List.length_append, List.length_singleton, hlength]
        omega
      · show (s.aligner.keptBits.drop 1240).length + 1240 * (s.aligner.underTest ++ [_]).length < 3720
        rw [List.length_drop, List.length_append, List.length_singleton]
        omega
  · refine ⟨hbad, Nat.zero_le _, hthreshold, nofun, fun _ => ⟨hzero, hwindowZero, hreported, harriving⟩,
      fun _ => ⟨rfl, rfl⟩, nofun, ?_, fun hne => absurd rfl hne, nofun, fun hc => ?_⟩
    · show (((s.aligner.underTest ++ [_]).flatMap Frame.bits ++ s.aligner.keptBits.drop 1240).tail).length +
        1240 * ([] : List Frame).length < 3720
      rw [List.length_tail, List.length_append, length_flatMap_bits, List.length_append, List.length_singleton,
        List.length_drop, List.length_nil]
      omega
    · exact nomatch hlive.symm.trans hc

/-- The next place in the quality window: one more, or the first of a window that begins (R23). -/
theorem FrameNumber.placeInWindow_successor (n : FrameNumber) :
    FrameNumber.placeInWindow (successor n) = FrameNumber.placeInWindow n + 1 ∨
      ((successor n).index = 0#4 ∧ (successor n).superframe.toNat % 64 = 0) := by
  obtain ⟨index, superframe⟩ := n
  by_cases hlast : index = 15#4
  · subst hlast
    simp only [successor, if_true, FrameNumber.placeInWindow, BitVec.toNat_add]
    have := superframe.isLt
    norm_num
    omega
  · have hlt : index.toNat < 15 := by
      have hne : index.toNat ≠ 15 := fun h => hlast (BitVec.eq_of_toNat_eq h)
      have := index.isLt
      omega
    simp only [successor, hlast, if_false, FrameNumber.placeInWindow, BitVec.toNat_add]
    norm_num
    omega

/-- The aligner as a frame begins: its flywheel stepped and a window that ends there closed (R22, R23). -/
def Aligner.stepped (a : Aligner) : Aligner := Aligner.closeWindow { a with flywheel := successor a.flywheel }

/-- With the frame just begun the window has room for one more (R23). -/
theorem Aligner.closeWindow_room {a : Aligner} (h : a.windowCount ≤ FrameNumber.placeInWindow a.flywheel) :
    (Aligner.stepped a).windowCount + 1 ≤ FrameNumber.placeInWindow (successor a.flywheel) := by
  unfold Aligner.stepped Aligner.closeWindow
  split
  · next hcloses =>
    show 0 + 1 ≤ _
    simp [FrameNumber.placeInWindow]
  · next hopen =>
    obtain hnext | ⟨hindex, hsf⟩ := FrameNumber.placeInWindow_successor a.flywheel
    · rw [hnext]
      exact Nat.succ_le_succ h
    · exact absurd (by simp [FrameNumber.isStart, hindex, hsf]) hopen

/-- In ALIGNED nothing is under test and no bits are kept; a classified frame leaves the counts in reach of R20 and R23. -/
structure State.AlignedSound (s : State) : Prop where
  align : s.aligner.align = .aligned
  bad : s.aligner.consecutiveBad ≤ 3
  threshold : s.aligner.threshold ≤ 1023
  window : s.aligner.windowCount ≤ FrameNumber.placeInWindow s.aligner.flywheel
  confirm : s.aligner.confirmCount = 0
  underTest : s.aligner.underTest = []
  keptBits : s.aligner.keptBits = []
  carrier : s.aligner.carrier = true

theorem State.AlignedSound.of_alignerSound {s : State} (h : State.AlignerSound s) (ha : s.aligner.align = .aligned) :
    State.AlignedSound s := by
  obtain ⟨hbad, -, hthreshold, hwindow, -, hidle, -, -, hempty, hcarrier⟩ := h
  obtain ⟨hconfirm, hunder⟩ := hidle (by rw [ha]; decide)
  refine ⟨ha, by omega, hthreshold, hwindow ha, hconfirm, hunder, hempty (by rw [ha]; decide) (by rw [ha]; decide), ?_⟩
  by_contra hc
  have := hcarrier.2 (by simpa using hc)
  rw [ha] at this
  cases this

theorem State.AlignedSound.alignerSound {s : State} (h : State.AlignedSound s) (hb : s.aligner.consecutiveBad ≤ 2) :
    State.AlignerSound s := by
  obtain ⟨halign, -, hthreshold, hwindow, hconfirm, hunder, hkept, hcarrier⟩ := h
  refine ⟨hb, by omega, hthreshold, fun _ => hwindow, fun hne => absurd halign hne, fun _ => ⟨hconfirm, hunder⟩,
    fun hc => (nomatch halign.symm.trans hc), by rw [hkept, hunder]; decide, fun _ _ => hkept, ?_⟩
  rw [halign, hcarrier]
  exact ⟨nofun, nofun⟩

/-- What a frame does to the counts: a good one clears the run of bad ones, a bad one is counted in both (R19, R23). -/
theorem State.taken_counts (s : State) (f : Frame) :
    (State.classOf s f = .good → (State.taken s f).aligner.consecutiveBad = 0 ∧
      (State.taken s f).aligner.windowCount = (Aligner.stepped s.aligner).windowCount) ∧
    (State.classOf s f ≠ .good → (State.taken s f).aligner.consecutiveBad = s.aligner.consecutiveBad + 1 ∧
      (State.taken s f).aligner.windowCount = (Aligner.stepped s.aligner).windowCount + 1) := by
  have hsettled : (State.stepFlywheel (State.settleChoice s)).aligner = Aligner.stepped s.aligner := by
    rw [State.settleChoice_frame]; rfl
  have hbad : (Aligner.stepped s.aligner).consecutiveBad = s.aligner.consecutiveBad := by
    unfold Aligner.stepped Aligner.closeWindow; split <;> rfl
  refine ⟨fun hg => ?_, fun hb => ?_⟩
  · rw [State.taken_aligner, State.takeClassified, if_pos hg, State.takeGood]
    dsimp only
    rw [State.learnFrom_frame, ← hsettled]
    split <;> exact ⟨rfl, rfl⟩
  · rw [State.taken_aligner, State.takeClassified, if_neg hb, State.takeBad, State.countClass, ← hsettled]
    rw [← hsettled] at hbad
    split <;> exact ⟨congrArg (· + 1) hbad, rfl⟩

theorem State.taken_alignedSound {s : State} (h : State.AlignerSound s) (ha : s.aligner.align = .aligned) (f : Frame) :
    State.AlignedSound (State.taken s f) := by
  have hroom := Aligner.closeWindow_room (h.2.2.2.1 ha)
  have hbad := h.1
  obtain ⟨halign, -, hthreshold, -, hconfirm, hunder, hkept, hcarrier⟩ := State.AlignedSound.of_alignerSound h ha
  obtain ⟨hgood, hfailed⟩ := State.taken_counts s f
  have hrest : (State.taken s f).aligner = { s.aligner with
      flywheel := (State.taken s f).aligner.flywheel
      consecutiveBad := (State.taken s f).aligner.consecutiveBad
      windowCount := (State.taken s f).aligner.windowCount
      windowReported := (State.taken s f).aligner.windowReported
      position := (State.taken s f).aligner.position
      lastUf := (State.taken s f).aligner.lastUf } := by
    rw [State.taken_aligner, State.takeClassified_aligner, State.settleChoice_frame, State.stepFlywheel, Aligner.closeWindow]
    split <;> rfl
  have hcounts : (State.taken s f).aligner.consecutiveBad ≤ 3 ∧
      (State.taken s f).aligner.windowCount ≤ FrameNumber.placeInWindow (successor s.aligner.flywheel) := by
    by_cases hc : State.classOf s f = .good
    · obtain ⟨hzero, hwindow⟩ := hgood hc
      rw [hzero, hwindow]
      omega
    · obtain ⟨hone, hwindow⟩ := hfailed hc
      rw [hone, hwindow]
      omega
  refine ⟨?_, hcounts.1, ?_, by rw [State.taken_flywheel]; exact hcounts.2, ?_, ?_, ?_, ?_⟩ <;> rw [hrest] <;> assumption

theorem State.Leaves.alignedSound {fires : Prop} {s t : State} (h : State.Leaves fires s t) (hs : State.AlignedSound s) :
    State.AlignedSound t := by
  obtain ⟨halign, hbad, hthreshold, hwindow, hconfirm, hunder, hkept, hcarrier⟩ := hs
  have hset := h.threshold hthreshold
  refine ⟨?_, ?_, hset, ?_, ?_, ?_, ?_, ?_⟩ <;> rw [h.aligner] <;> assumption

theorem State.judgeQuality_alignerSound {s : State} (h : State.AlignedSound s) :
    State.AlignerSound (State.judgeQuality s) := by
  have hreported : State.AlignedSound (State.qualityReported s) := by
    unfold State.qualityReported
    split
    · exact ⟨h.align, h.bad, h.threshold, h.window, h.confirm, h.underTest, h.keptBits, h.carrier⟩
    · exact h
  rw [State.judgeQuality_eq]
  split
  · rw [State.leaveAligned_frame]
    exact State.alignerSound_of_cleared (State.qualityReported s).aligner rfl hreported.threshold rfl
      (.inl ⟨rfl, hreported.carrier⟩)
  · next hstays =>
    simp only [Bool.or_eq_true, decide_eq_true_eq, not_or] at hstays
    exact hreported.alignerSound (by omega)

theorem State.classify_alignerSound {s : State} (h : State.AlignerSound s) (ha : s.aligner.align = .aligned) (f : Frame) :
    State.AlignerSound (State.classify s f) := by
  have hleaves := State.handedOn_leaves s f
  have hhanded := hleaves.alignedSound (State.taken_alignedSound h ha f)
  rw [State.classify_eq]
  split
  · next hgood =>
    refine hhanded.alignerSound ?_
    rw [hleaves.aligner]
    exact ((State.taken_counts s f).1 hgood).1.trans_le (Nat.zero_le _)
  · exact State.judgeQuality_alignerSound hhanded

theorem State.hardware_alignerSound {s : State} {carrier : Bool} (ha : s.aligner = Aligner.hardware carrier)
    (hr : s.ringOut = RingOut.hardware) : State.AlignerSound s := by
  rw [State.AlignerSound, ha, hr]
  cases carrier <;> simp [Aligner.hardware, RingOut.hardware]

theorem State.resetBy_alignerSound {s : State} (h : State.AlignerSound s) (scope : ResetScope) :
    State.AlignerSound (State.resetBy s scope) := by
  cases scope
  · exact State.hardware_alignerSound rfl rfl
  · exact h

theorem State.report_alignerSound {s : State} (h : State.AlignerSound s) (e : SegmentEnd) :
    State.AlignerSound (State.report s e) := by
  obtain ⟨v, hops, he | ⟨scope, he⟩⟩ := State.report_cases s e
  · exact he ▸ (ReportOps.leaves (fires := False) hops).alignerSound h
  · exact he ▸ State.resetBy_alignerSound ((ReportOps.leaves (fires := False) hops).alignerSound h) scope

theorem State.endFrame_alignerSound {s : State} (h : State.AlignerSound s) : State.AlignerSound (State.endFrame s) := by
  have hleft : State.AlignerSound (State.frameLeft s) := by
    rw [State.frameLeft, State.finishPayload_frame]
    exact h
  obtain ⟨v, hops, he | ⟨scope, he⟩⟩ := State.endFrame_cases s
  · exact he ▸ (ReportOps.leaves (fires := False) hops).alignerSound hleft
  · exact he ▸ State.resetBy_alignerSound ((ReportOps.leaves (fires := False) hops).alignerSound hleft) scope

theorem State.emit_alignerSound {s : State} (h : State.AlignerSound s) (f : FrameSource) :
    State.AlignerSound (State.emit s f) := by
  rw [State.emit_frame]
  exact h

/-- Outside ALIGNED the flywheel is bound by nothing. -/
theorem State.steppedForSubstitute_alignerSound {s : State} (h : State.AlignerSound s) (ha : s.aligner.align ≠ .aligned) :
    State.AlignerSound (State.steppedForSubstitute s) := by
  obtain ⟨hbad, hconfirm, hthreshold, -, hrest⟩ := h
  exact ⟨hbad, hconfirm, hthreshold, fun hal => absurd hal ha, hrest⟩

theorem Ran.alignerSound {s t : State} {c : Instr} (h : Ran s c t) (hs : State.AlignerSound s) : State.AlignerSound t := by
  cases h with
  | stays c => exact hs
  | poweredOn high carrier => exact State.hardware_alignerSound rfl rfl
  | held =>
    obtain ⟨hbad, hconfirm, hthreshold, hwindow, houtside, hrest⟩ := hs
    exact ⟨hbad, hconfirm, hthreshold, hwindow,
      fun hne => ⟨(houtside hne).1, (houtside hne).2.1, (houtside hne).2.2.1, rfl⟩, hrest⟩
  | released carrier hr => exact State.hardware_alignerSound rfl rfl
  | signalLost hr hn ha =>
    exact State.alignerSound_of_cleared _ rfl hs.2.2.1 (hs.2.2.2.2.1 ha).2.2.2 (.inr ⟨rfl, rfl⟩)
  | alignmentLost hr ha =>
    rw [State.leaveAligned_frame]
    exact State.alignerSound_of_cleared _ rfl hs.2.2.1 rfl (.inr ⟨rfl, rfl⟩)
  | signalBack hr ha =>
    obtain ⟨hbad, hconfirm, hthreshold, hwindow, houtside, hidle, hunder, hkept, hempty, hcarrier⟩ := hs
    refine ⟨hbad, hconfirm, hthreshold, nofun, fun _ => houtside (by rw [ha]; decide), fun _ => hidle (by rw [ha]; decide),
      nofun, ?_, fun _ _ => rfl, nofun, nofun⟩
    exact (Nat.add_le_add_right (Nat.zero_le _) _).trans_lt hkept
  | hunted candidate hr ha => exact State.huntFor_alignerSound hs ha candidate
  | confirmed f hr ha => exact State.confirmWith_alignerSound hs ha f
  | classified c f hc hr ha => exact State.classify_alignerSound hs ha f
  | substituteBegan hr hm =>
    simp only [State.substituteMayStart, Bool.and_eq_true, decide_eq_true_eq] at hm
    exact State.emit_alignerSound
      (State.steppedForSubstitute_alignerSound (State.endFrame_alignerSound hs) (by simpa using hm.1.2)) _
  | forwardedBegan copy rest hr hc =>
    exact State.emit_alignerSound (s := { State.endFrame s with
      ringOut := { (State.endFrame s).ringOut with copies := rest } }) (State.endFrame_alignerSound hs) _
  | payloadCompleted hr => rw [State.finishPayload_frame]; exact hs
  | frameEnded c hc hr => exact State.endFrame_alignerSound hs
  | forwardedReported n hr hm => exact State.report_alignerSound hs (.forwarded n)
  | localFrameBegan hr hm hd => rw [State.beginLocalFrame_frame]; exact hs
  | externalStarted hr hm => rw [State.externalStart_frame]; exact hs
  | localFrameCompleted add hr => rw [State.completeLocalFrame_frame]; exact hs
  | localTimingLost hr hd => rw [State.watchdogShare_frame]; exact State.endFrame_alignerSound hs
  | expired cls hr hd => exact hs
  | requestTaken hr => exact (State.take_leaves (fires := False) s).alignerSound hs
  | delivered c d op params hc =>
    exact (RequestOps.leaves (fires := False) (State.deliver_ops s d op params)).alignerSound hs

end Sys2Proof.Machine

namespace Sys2Proof.Proofs

open Sys2Proof Sys2Proof.Machine

set_option Elab.async false

/-- Settles O56. -/
theorem alignerStaysSound : Obligations.AlignerStaysSound := by
  intro s t hs h
  obtain ⟨-, rfl⟩ | ⟨c, rest, -, hx⟩ := step_cases h
  · exact hs
  · exact (ran_of_exec hx).alignerSound hs

end Sys2Proof.Proofs

/-! SUPPORT. The steady stores of FOLLOW (R75, R84, R176): each store takes one read and one write in every emitted frame, so
that none slips. -/

namespace Sys2Proof.Machine

set_option Elab.async false

/-! ### One store with a steady fill -/

/-- A RUNNING store holds `n` frames and a PRIMING one at most one. -/
def Store.Holds (st : Store) (n : Nat) : Prop :=
  (st.state = .running → st.frames.length = n) ∧ (st.state = .priming → st.frames.length ≤ 1)

/-- A read takes one frame and does not repeat one (R77, R79). -/
theorem Store.Holds.read {st : Store} {n : Nat} (h : Store.Holds st (n + 1)) (idle : Sample) :
    Store.Holds (Store.read st idle).1 n ∧ (Store.read st idle).2.2 = false := by
  obtain ⟨hrunning, hpriming⟩ := h
  rcases Store.read_cases st idle with ⟨hs, he⟩ | ⟨f, rest, hs, hf, he⟩ | ⟨hs, hf, he⟩ <;> rw [he]
  · exact ⟨⟨fun h => absurd h hs, hpriming⟩, rfl⟩
  · refine ⟨⟨fun _ => ?_, fun h => (nomatch hs.symm.trans h)⟩, rfl⟩
    have := hrunning hs
    rw [hf, List.length_cons] at this
    exact Nat.succ.inj this
  · have := hrunning hs
    rw [hf] at this
    cases this

/-- A write into a store with one frame adds one and drops none (R76, R78, R80). -/
theorem Store.Holds.write {st : Store} (h : Store.Holds st 1) (f : LocalSamples) :
    Store.Holds (Store.write st f).1 2 ∧ (Store.write st f).2 = false := by
  obtain ⟨hrunning, hpriming⟩ := h
  rcases Store.write_cases st f with ⟨hs, he⟩ | ⟨hs, hf, he⟩ | ⟨hs, hf, he⟩ | ⟨hs, hl, he⟩ | ⟨hs, hl, he⟩ <;> rw [he]
  · exact ⟨⟨fun h => (nomatch hs.symm.trans h), hpriming⟩, rfl⟩
  · refine ⟨⟨fun h => (nomatch hs.symm.trans h), fun _ => ?_⟩, rfl⟩
    simp
  · refine ⟨⟨fun _ => ?_, nofun⟩, rfl⟩
    have hone := hpriming hs
    have hsome := List.length_pos_iff.2 hf
    rw [List.length_append, List.length_singleton]
    omega
  · refine ⟨⟨fun _ => ?_, fun h => (nomatch hs.symm.trans h)⟩, rfl⟩
    have := hrunning hs
    simp [this]
  · have := hrunning hs
    omega

theorem Store.holds_emptied {m : LocalMode} (n : Nat) : Store.Holds (Store.emptied (LocalMode.storeState m)) n := by
  cases m <;> exact ⟨nofun, fun _ => Nat.zero_le _⟩

/-! ### The port in FOLLOW -/

/-- The fill of both stores in FOLLOW; `isOpen` says that an emitted frame is in progress whose payload is not complete. -/
def LocalPort.SteadyAt (p : LocalPort) (isOpen : Bool) : Prop :=
  p.mode = .follow →
    (p.startDue = true → isOpen = true ∧ LocalPort.frameInProgress p = false) ∧
      Store.Holds p.drop (if isOpen ∧ p.startDue = false then 1 else 2) ∧
      Store.Holds p.add (if LocalPort.frameInProgress p ∨ p.startDue then 1 else 2)

theorem State.followSteady_iff (s : State) :
    State.FollowSteady s ↔ (s.resetN = true → LocalPort.SteadyAt s.port (RingOut.payloadOpen s.ringOut)) := by
  refine forall_congr' fun _ => forall_congr' fun _ => and_congr_right fun _ => ?_
  exact ⟨fun ⟨hdrop, hadd, hdrop', hadd'⟩ => ⟨⟨hdrop, hdrop'⟩, hadd, hadd'⟩,
    fun ⟨⟨hdrop, hdrop'⟩, hadd, hadd'⟩ => ⟨hdrop, hadd, hdrop', hadd'⟩⟩

theorem LocalPort.steadyAt_of_mode {p : LocalPort} {b : Bool} (h : p.mode ≠ .follow) : LocalPort.SteadyAt p b :=
  fun hf => absurd hf h

theorem LocalPort.setMode_steady (p : LocalPort) (m : LocalMode) {b : Bool} (h : LocalPort.SteadyAt p b) :
    LocalPort.SteadyAt (LocalPort.setMode p m) b := by
  unfold LocalPort.setMode
  split
  · exact h
  · exact fun _ => ⟨nofun, Store.holds_emptied _, Store.holds_emptied _⟩

/-! ### Operations that leave the port to itself -/

/-- The counters of the slips are as they were, or cleared (R176, R179). -/
def State.SlipsKept (s t : State) : Prop :=
  ∀ k : CounterName, CounterName.isSlip k = true →
    t.counters[k.index] = s.counters[k.index] ∨ t.counters[k.index] = 0#16

theorem State.SlipsKept.of_counters {s t : State} (h : t.counters = s.counters) : State.SlipsKept s t :=
  fun k _ => .inl (by rw [h])

theorem State.SlipsKept.of_cleared {s t : State} (h : t.counters = countersHardware) : State.SlipsKept s t := by
  intro k _
  rw [h]
  cases k <;> exact .inr rfl

theorem State.SlipsKept.trans {s t u : State} (h : State.SlipsKept s t) (h' : State.SlipsKept t u) : State.SlipsKept s u := by
  intro k hk
  obtain he | he := h' k hk
  · rw [he]
    exact h k hk
  · exact .inr he

/-- `t` is `s` after operations that read and write no store. -/
structure State.StoresAside (s t : State) : Prop where
  resetN : t.resetN = s.resetN := by rfl
  current : t.ringOut.current = s.ringOut.current := by rfl
  port : ∀ b, LocalPort.SteadyAt s.port b → LocalPort.SteadyAt t.port b := by exact fun _ h => h
  slips : State.SlipsKept s t := by exact .of_counters rfl

theorem State.StoresAside.refl (s : State) : State.StoresAside s s := {}

theorem State.StoresAside.trans {s t u : State} (h : State.StoresAside s t) (h' : State.StoresAside t u) :
    State.StoresAside s u where
  resetN := h'.resetN.trans h.resetN
  current := h'.current.trans h.current
  port b := h'.port b ∘ h.port b
  slips := h.slips.trans h'.slips

theorem State.StoresAside.of_ops {R : State → State → Prop} (keep : ∀ u v, R u v → State.StoresAside u v) {s t : State}
    (h : Relation.ReflTransGen R s t) : State.StoresAside s t :=
  kept_of_ops h (fun _ _ hop hk => hk.trans (keep _ _ hop)) (.refl s)

theorem State.count_aside (s : State) {k : CounterName} (hk : CounterName.isSlip k = false) :
    State.StoresAside s (State.count s k) where
  slips j hj := by
    refine .inl ?_
    rw [State.count_counter, if_neg]
    rintro rfl
    exact nomatch hk.symm.trans hj

theorem Executed.aside {s t : State} (h : Executed s t) : State.StoresAside s t := by
  cases h with
  | settingsApplied os n _ =>
    refine { port := fun b hb => ?_ }
    unfold State.applySettings
    dsimp only
    split
    · exact LocalPort.setMode_steady _ _ hb
    · exact hb
  | countersCleared => exact { slips := .of_cleared rfl }
  | _ => exact {}

theorem RequestOp.aside {s t : State} (h : RequestOp s t) : State.StoresAside s t := by
  cases h with
  | executed _ hx => exact hx.aside
  | counted k hk => exact State.count_aside s hk
  | replayed p hp hl =>
    unfold State.answerFromCache
    split <;> exact {}
  | _ => exact {}

theorem ReceiveOp.aside {s t : State} (h : ReceiveOp s t) : State.StoresAside s t := by
  cases h with
  | request _ hop => exact hop.aside
  | _ => exact {}

theorem HandOnOp.aside {rt : Bool} {s t : State} (h : HandOnOp rt s t) : State.StoresAside s t := by
  cases h with
  | receive _ hop => exact hop.aside
  | fired => rw [State.fireSwitch_frame]; exact {}
  | evaluated copied payload start i => rw [State.evaluateWatch_fields]; exact {}

theorem ReportOp.aside {s t : State} (h : ReportOp s t) : State.StoresAside s t := by
  cases h with
  | request _ hop => exact hop.aside
  | _ => exact {}

theorem State.leaveAligned_aside (s : State) (st : AlignState) : State.StoresAside s (State.leaveAligned s st) := by
  unfold State.leaveAligned
  refine .trans (t := State.post { s with
    aligner := Aligner.countsCleared s.aligner st, ringOut := { s.ringOut with copyArriving := false } } .alignLost
    none none) {} ?_
  exact .trans (State.count_aside _ rfl) (.of_ops (fun _ _ => ReceiveOp.aside) (State.abortCounted_ops _))

theorem State.takeClassified_aside (s : State) (f : Frame) (c : FrameClass) :
    State.StoresAside s (State.takeClassified s f c) := by
  unfold State.takeClassified
  split
  · unfold State.takeGood
    dsimp only
    rw [State.learnFrom_frame]
    split
    · have hcounted := State.count_aside { s with aligner := { s.aligner with consecutiveBad := 0 } }
        (k := .markedFrames) rfl
      exact .trans (s := s) (t := { s with aligner := { s.aligner with consecutiveBad := 0 } }) {} (hcounted.trans {})
    · exact {}
  · unfold State.takeBad State.countClass
    have hmarked : State.StoresAside s { s with aligner := { s.aligner with
      consecutiveBad := s.aligner.consecutiveBad + 1, windowCount := s.aligner.windowCount + 1 } } := {}
    cases c with
    | good => exact hmarked
    | sync => exact hmarked.trans (State.count_aside _ (k := .syncErrors) rfl)
    | check => exact hmarked.trans (State.count_aside _ (k := .checkErrors) rfl)
    | sequence => exact hmarked.trans (State.count_aside _ (k := .sequenceErrors) rfl)

theorem State.judgeQuality_aside (s : State) : State.StoresAside s (State.judgeQuality s) := by
  have hreported : State.StoresAside s (State.qualityReported s) := by
    unfold State.qualityReported
    split <;> exact {}
  rw [State.judgeQuality_eq]
  split
  · exact hreported.trans (State.leaveAligned_aside _ _)
  · exact hreported

theorem State.classify_aside (s : State) (f : Frame) : State.StoresAside s (State.classify s f) := by
  have hstepped : State.StoresAside s (State.stepFlywheel (State.settleChoice s)) := by
    rw [State.settleChoice_frame]
    exact {}
  have htaken : State.StoresAside s (State.taken s f) :=
    hstepped.trans ((State.takeClassified_aside _ f (State.classOf s f)).trans {})
  have hhanded : State.StoresAside s (State.handedOn s f) :=
    htaken.trans (.of_ops (fun _ _ => HandOnOp.aside) (State.handOn_ops _ _ _ _ f))
  rw [State.classify_eq]
  split
  · exact hhanded
  · exact hhanded.trans (State.judgeQuality_aside _)

theorem State.resetBy_aside (s : State) (scope : ResetScope) (hc : s.ringOut.current = none) :
    State.StoresAside s (State.resetBy s scope) := by
  cases scope
  · exact { current := hc.symm, port := fun _ _ => LocalPort.steadyAt_of_mode nofun, slips := .of_cleared rfl }
  · exact {}

/-! ### Local frames in FOLLOW -/

theorem State.beginLocalFrame_steady {s : State} {b : Bool} (h : LocalPort.SteadyAt s.port b) (hd : s.port.startDue = true)
    (hm : s.port.mode = .follow) :
    LocalPort.SteadyAt (State.beginLocalFrame s).port b ∧ State.SlipsKept s (State.beginLocalFrame s) := by
  obtain ⟨hdue, hdrop, hadd⟩ := h hm
  obtain ⟨rfl, -⟩ := hdue hd
  rw [hd] at hdrop hadd
  obtain ⟨hread, hslip⟩ := Store.Holds.read (n := 1) (by simpa using hdrop) s.ringOut.idleWord
  refine ⟨fun _ => ?_, .of_counters ?_⟩
  · rw [State.beginLocalFrame_port]
    exact ⟨nofun, by simpa using hread, by simpa [LocalPort.frameInProgress] using hadd⟩
  · rw [State.beginLocalFrame, hslip]
    rfl

theorem State.completeLocalFrame_steady {s : State} {b : Bool} (h : LocalPort.SteadyAt s.port b) (add : LocalSamples)
    (hm : s.port.mode = .follow) :
    LocalPort.SteadyAt (State.completeLocalFrame s add).port b ∧ State.SlipsKept s (State.completeLocalFrame s add) ∧
      LocalPort.frameInProgress (State.completeLocalFrame s add).port = false := by
  unfold State.completeLocalFrame
  split
  · next hprogress =>
    obtain ⟨hdue, hdrop, hadd⟩ := h hm
    have hnot : s.port.startDue = false := by
      by_contra hd
      exact nomatch hprogress.symm.trans (hdue (by simpa using hd)).2
    obtain ⟨hwrite, hslip⟩ := Store.Holds.write (st := s.port.add) (by simpa [hprogress] using hadd) add
    have hdone : LocalPort.frameInProgress { s.port with
        localFrame := s.port.localFrame.map fun lf => { lf with edges := 768, addSoFar := add.toList } } = false := by
      unfold LocalPort.frameInProgress
      cases s.port.localFrame <;> rfl
    refine ⟨fun _ => ?_, .of_counters ?_, ?_⟩
    · rw [State.writeAdd_port]
      refine ⟨fun hd => (nomatch hnot.symm.trans hd), hdrop, ?_⟩
      have hsame : LocalPort.frameInProgress { s.port with
          localFrame := s.port.localFrame.map fun lf => { lf with edges := 768, addSoFar := add.toList }
          add := (Store.write s.port.add add).1 } = false := hdone
      rw [if_neg (by rw [hsame, hnot]; decide)]
      exact hwrite
    · rw [State.writeAdd, hslip]
      rfl
    · rw [State.writeAdd_port]
      exact hdone
  · next hidle => exact ⟨h, .of_counters rfl, by simpa using hidle⟩

theorem State.settleLocalStart_steady {s : State} {b : Bool} (h : LocalPort.SteadyAt s.port b) (hm : s.port.mode = .follow) :
    LocalPort.SteadyAt (State.settleLocalStart s).port b ∧ State.SlipsKept s (State.settleLocalStart s) ∧
      (State.settleLocalStart s).port.startDue = false := by
  unfold State.settleLocalStart
  split
  · next hd =>
    obtain ⟨hsteady, hslips⟩ := State.beginLocalFrame_steady h hd hm
    exact ⟨hsteady, hslips, by rw [State.beginLocalFrame_port]⟩
  · next hnot => exact ⟨h, .of_counters rfl, by simpa using hnot⟩

/-! ### Emitted frames in FOLLOW -/

theorem State.settleLocalStart_mode (s : State) : (State.settleLocalStart s).port.mode = s.port.mode := by
  unfold State.settleLocalStart
  split
  · rw [State.beginLocalFrame_port]
  · rfl

theorem State.finishPayload_mode (s : State) : (State.finishPayload s).port.mode = s.port.mode := by
  unfold State.finishPayload
  split
  · split
    · rfl
    · dsimp only
      rw [State.writeDrop_port, State.settleChoice_frame]
      exact State.settleLocalStart_mode s
  · rfl

/-- With its payload complete the frame has written its drop frame into a store that its local frame has read (R84). -/
theorem State.finishPayload_steady {s : State} (h : LocalPort.SteadyAt s.port (RingOut.payloadOpen s.ringOut))
    (hm : s.port.mode = .follow) :
    LocalPort.SteadyAt (State.finishPayload s).port false ∧ State.SlipsKept s (State.finishPayload s) := by
  unfold State.finishPayload
  split
  · next e he =>
    split
    · next hdone =>
      have hclosed : RingOut.payloadOpen s.ringOut = false := by simp [RingOut.payloadOpen, he, hdone]
      exact ⟨hclosed ▸ h, .of_counters rfl⟩
    · next hopen =>
      have hopen : RingOut.payloadOpen s.ringOut = true := by simp [RingOut.payloadOpen, he, hopen]
      rw [hopen] at h
      obtain ⟨hsettled, hslips, hnot⟩ := State.settleLocalStart_steady h hm
      have hmode : (State.settleLocalStart s).port.mode = .follow := (State.settleLocalStart_mode s).trans hm
      obtain ⟨-, hdrop, hadd⟩ := hsettled hmode
      obtain ⟨hwrite, hslip⟩ := Store.Holds.write (st := (State.settleLocalStart s).port.drop)
        (by simpa [hnot] using hdrop) e.drop
      dsimp only
      rw [State.settleChoice_frame]
      refine ⟨fun _ => ?_, hslips.trans (.of_counters ?_)⟩
      · rw [State.writeDrop_port]
        exact ⟨fun hd => (nomatch hnot.symm.trans hd), hwrite, hadd⟩
      · rw [State.writeDrop]
        dsimp only
        rw [hslip]
        rfl
  · next hnone =>
    have hclosed : RingOut.payloadOpen s.ringOut = false := by simp [RingOut.payloadOpen, hnone]
    exact ⟨hclosed ▸ h, .of_counters rfl⟩

theorem State.finishPayload_closed (s : State) : RingOut.payloadOpen (State.finishPayload s).ringOut = false := by
  unfold State.finishPayload
  split
  · next e he =>
    split
    · next hdone => simp [RingOut.payloadOpen, he, hdone]
    · dsimp only
      rw [State.writeDrop_fields]
      rfl
  · next hnone => simp [RingOut.payloadOpen, hnone]

theorem State.frameLeft_steady {s : State} (h : LocalPort.SteadyAt s.port (RingOut.payloadOpen s.ringOut)) :
    LocalPort.SteadyAt (State.frameLeft s).port false := by
  by_cases hm : s.port.mode = .follow
  · exact (State.finishPayload_steady h hm).1
  · exact LocalPort.steadyAt_of_mode (by rwa [State.frameLeft, State.finishPayload_mode])

theorem State.endFrame_aside (s : State) : State.StoresAside (State.frameLeft s) (State.endFrame s) := by
  obtain ⟨v, hops, he | ⟨scope, he⟩⟩ := State.endFrame_cases s
  · exact he ▸ .of_ops (fun _ _ => ReportOp.aside) hops
  · have haside : State.StoresAside (State.frameLeft s) v := .of_ops (fun _ _ => ReportOp.aside) hops
    exact he ▸ haside.trans (State.resetBy_aside v scope haside.current)

theorem State.endFrame_steady {s : State} (h : LocalPort.SteadyAt s.port (RingOut.payloadOpen s.ringOut)) :
    LocalPort.SteadyAt (State.endFrame s).port false ∧
      (s.port.mode = .follow → State.SlipsKept s (State.endFrame s)) := by
  have haside := State.endFrame_aside s
  refine ⟨haside.port false (State.frameLeft_steady h), fun hm => ?_⟩
  have hfinish : State.SlipsKept s (State.frameLeft s) := (State.finishPayload_steady h hm).2
  exact hfinish.trans haside.slips

theorem State.watchdogMark_follow {s : State} (hm : s.port.mode = .follow) :
    (State.watchdogMark s).port = { s.port with markTaken := false } ∨ (State.watchdogMark s).port = s.port := by
  unfold State.watchdogMark
  split
  · exact .inl rfl
  · rw [if_pos (.inl (by rw [hm]; exact nofun))]
    exact .inr rfl

theorem State.watchdogMark_mode (s : State) : (State.watchdogMark s).port.mode = s.port.mode := by
  unfold State.watchdogMark
  split
  · rfl
  · split
    · rfl
    · split <;> rfl

theorem State.mark_mode (s : State) : (State.mark s).port.mode = s.port.mode := State.watchdogMark_mode _

theorem State.mark_follow {s : State} (hm : s.port.mode = .follow) :
    (State.mark s).port = { s.port with markTaken := false } ∨ (State.mark s).port = s.port :=
  State.watchdogMark_follow (s := { s with events := _ }) hm

/-- A mark of the watchdog does not concern FOLLOW (R85). -/
theorem State.mark_steady {s : State} {b : Bool} (h : LocalPort.SteadyAt s.port b) :
    LocalPort.SteadyAt (State.mark s).port b := by
  by_cases hm : s.port.mode = .follow
  · obtain he | he := State.mark_follow hm <;> rw [he] <;> exact h
  · exact LocalPort.steadyAt_of_mode (by rwa [State.mark_mode])

theorem State.followFrameStart_mode (s : State) : (State.followFrameStart s).port.mode = s.port.mode := by
  unfold State.followFrameStart
  split
  · dsimp only
    split
    · exact State.completeLocalFrame_mode s _
    · rfl
  · rfl

/-- The start of an emitted frame: the local frame before it is complete, and the next is due (R73). -/
theorem State.followFrameStart_steady {s : State} (h : LocalPort.SteadyAt s.port false) (hm : s.port.mode = .follow) :
    Store.Holds (State.followFrameStart s).port.drop 2 ∧ Store.Holds (State.followFrameStart s).port.add 2 ∧
      LocalPort.frameInProgress (State.followFrameStart s).port = false ∧
      State.SlipsKept s (State.followFrameStart s) := by
  have hnot {p : LocalPort} (hp : LocalPort.SteadyAt p false) (hmode : p.mode = .follow) : p.startDue = false := by
    by_contra hd
    exact nomatch ((hp hmode).1 (by simpa using hd)).1
  unfold State.followFrameStart
  rw [if_pos hm]
  dsimp only
  split
  · obtain ⟨hsteady, hslips, hdone⟩ :=
      State.completeLocalFrame_steady h (Vector.ofFn fun c => Config.ldiUnreported s.choices c) hm
    have hmode := (State.completeLocalFrame_mode s (Vector.ofFn fun c => Config.ldiUnreported s.choices c)).trans hm
    obtain ⟨-, hdrop, hadd⟩ := hsteady hmode
    rw [hdone, hnot hsteady hmode] at hadd
    exact ⟨by simpa using hdrop, by simpa using hadd, hdone, hslips⟩
  · next hidle =>
    obtain ⟨-, hdrop, hadd⟩ := h hm
    rw [hnot h hm] at hadd
    refine ⟨by simpa using hdrop, by simpa [hidle] using hadd, ?_, .of_counters rfl⟩
    exact Bool.not_eq_true _ ▸ hidle

/-- The node once the mark of an emitted frame is taken and the arbiter has given the segment (R33, R124). -/
def State.arbitrated (s : State) : State := Given.noted (State.arbitrate (State.mark s)) s.service.waitCount

theorem State.arbitrated_frame (s : State) :
    State.arbitrated s = { s with
      port := (State.mark s).port
      service := (State.arbitrated s).service
      engine := { s.engine with replies := (State.arbitrated s).engine.replies }
      events := (State.arbitrated s).events } := by
  unfold State.arbitrated
  rw [Given.noted_frame, State.arbitrate_keeps, State.mark_frame]

/-- The node once the local frame of FOLLOW and the read of the add frame have followed (R73, R79). -/
def State.frameRead (s : State) : LocalSamples × State := State.readAdd (State.followFrameStart (State.arbitrated s))

theorem State.emit_eq (s : State) (f : FrameSource) :
    State.emit s f = State.draw (State.place (State.frameRead s).2 f (State.frameRead s).1
      (State.arbitrate (State.mark s)).segment (State.arbitrate (State.mark s)).ends) := rfl

theorem State.emit_port (s : State) (f : FrameSource) : (State.emit s f).port = (State.frameRead s).2.port := rfl

theorem State.emit_counters (s : State) (f : FrameSource) : (State.emit s f).counters = (State.frameRead s).2.counters := rfl

theorem State.emit_mode (s : State) (f : FrameSource) : (State.emit s f).port.mode = s.port.mode := by
  rw [State.emit_port, State.frameRead, State.readAdd_port]
  show (State.followFrameStart _).port.mode = _
  rw [State.followFrameStart_mode, State.arbitrated_frame]
  exact State.mark_mode s

/-- An emitted frame begins: its read of an add frame takes what the local frame before wrote (R84). -/
theorem State.emit_steady {s : State} (h : LocalPort.SteadyAt s.port false) (f : FrameSource) :
    LocalPort.SteadyAt (State.emit s f).port true ∧ (s.port.mode = .follow → State.SlipsKept s (State.emit s f)) := by
  by_cases hm : s.port.mode = .follow
  · have hport : (State.arbitrated s).port = (State.mark s).port := by rw [State.arbitrated_frame]
    have hcounters : (State.arbitrated s).counters = s.counters := by rw [State.arbitrated_frame]
    have hmode : (State.arbitrated s).port.mode = .follow := by rw [hport, State.mark_mode, hm]
    obtain ⟨hdrop, hadd, hidle, hslips⟩ :=
      State.followFrameStart_steady (s := State.arbitrated s) (hport ▸ State.mark_steady h) hmode
    obtain ⟨hread, hslip⟩ :=
      Store.Holds.read (n := 1) hadd (State.followFrameStart (State.arbitrated s)).ringOut.idleWord
    have hdue : (State.followFrameStart (State.arbitrated s)).port.startDue = true := by
      rw [State.followFrameStart, if_pos hmode]
    refine ⟨fun _ => ?_, fun _ => ?_⟩
    · rw [State.emit_port, State.frameRead, State.readAdd_port]
      refine ⟨fun _ => ⟨rfl, hidle⟩, ?_, ?_⟩
      · rw [if_neg fun ⟨_, hnot⟩ => absurd (hdue.symm.trans hnot) (by decide)]
        exact hdrop
      · rw [if_pos (.inr hdue)]
        exact hread
    · have hread' : (State.emit s f).counters = (State.followFrameStart (State.arbitrated s)).counters := by
        rw [State.emit_counters, State.frameRead, State.readAdd]
        dsimp only
        rw [hslip]
        rfl
      exact (State.SlipsKept.trans (.of_counters hcounters) hslips).trans (.of_counters hread')
  · exact ⟨LocalPort.steadyAt_of_mode (by rwa [State.emit_mode]), fun h => absurd h hm⟩

/-! ### Every command -/

/-- What a command keeps in FOLLOW: the fills, and in a port that stays in FOLLOW the counters of the slips. -/
structure State.SteadyStep (s t : State) : Prop where
  steady : State.FollowSteady t
  slips : s.resetN = true → s.port.mode = .follow → t.port.mode = .follow → State.SlipsKept s t

theorem State.StoresAside.step {s t : State} (h : State.StoresAside s t) (hs : State.FollowSteady s) :
    State.SteadyStep s t := by
  rw [State.followSteady_iff] at hs
  refine ⟨(State.followSteady_iff t).2 fun hr => ?_, fun _ _ _ => h.slips⟩
  rw [RingOut.payloadOpen, h.current]
  exact h.port _ (hs (h.resetN ▸ hr))

theorem State.SteadyStep.of_mode {s t : State} (hm : t.port.mode ≠ .follow) : State.SteadyStep s t :=
  ⟨fun _ h => absurd h hm, fun _ _ h => absurd h hm⟩

/-- A frame that begins after the end of the one before it. -/
theorem State.emit_step {s u : State} (f : FrameSource) (hsteady : LocalPort.SteadyAt u.port false)
    (hslips : s.port.mode = .follow → State.SlipsKept s u) : State.SteadyStep s (State.emit u f) := by
  obtain ⟨hemit, hemitSlips⟩ := State.emit_steady hsteady f
  refine ⟨(State.followSteady_iff _).2 fun _ => hemit, fun _ hm hmode => ?_⟩
  exact (hslips hm).trans (hemitSlips (by rwa [State.emit_mode] at hmode))

theorem Ran.steadyStep {s t : State} {c : Instr} (h : Ran s c t) (hs : State.FollowSteady s) : State.SteadyStep s t := by
  have hport (hr : s.resetN = true) := (State.followSteady_iff s).1 hs hr
  cases h with
  | stays c => exact (State.StoresAside.refl s).step hs
  | poweredOn high carrier => exact .of_mode nofun
  | held => exact ⟨nofun, fun _ _ _ => .of_counters rfl⟩
  | released carrier hr => exact .of_mode nofun
  | signalLost hr hn ha => exact State.StoresAside.step {} hs
  | alignmentLost hr ha =>
    exact (State.StoresAside.trans (t := State.carrierGone s) {} (State.leaveAligned_aside _ _)).step hs
  | signalBack hr ha => exact State.StoresAside.step {} hs
  | hunted candidate hr ha =>
    refine State.StoresAside.step ?_ hs
    rw [State.huntFor_frame]
    exact {}
  | confirmed f hr ha =>
    refine State.StoresAside.step ?_ hs
    rw [State.confirmWith_frame]
    exact {}
  | classified c f hc hr ha => exact (State.classify_aside s f).step hs
  | substituteBegan hr hm =>
    obtain ⟨hsteady, hslips⟩ := State.endFrame_steady (hport hr)
    exact State.emit_step (u := State.steppedForSubstitute (State.endFrame s)) _ hsteady hslips
  | forwardedBegan copy rest hr hc =>
    obtain ⟨hsteady, hslips⟩ := State.endFrame_steady (hport hr)
    exact State.emit_step (u := { State.endFrame s with
      ringOut := { (State.endFrame s).ringOut with copies := rest } }) _ hsteady hslips
  | payloadCompleted hr =>
    by_cases hm : s.port.mode = .follow
    · obtain ⟨hsteady, hslips⟩ := State.finishPayload_steady (hport hr) hm
      refine ⟨(State.followSteady_iff _).2 fun _ => ?_, fun _ _ _ => hslips⟩
      rwa [State.finishPayload_closed]
    · exact .of_mode (by rwa [State.finishPayload_mode])
  | frameEnded c hc hr =>
    obtain ⟨hsteady, hslips⟩ := State.endFrame_steady (hport hr)
    refine ⟨(State.followSteady_iff _).2 fun _ => ?_, fun _ hm _ => hslips hm⟩
    rwa [RingOut.payloadOpen, State.endFrame_current]
  | forwardedReported n hr hm =>
    simp only [State.mayReportForwarded, Bool.and_eq_true, Option.isNone_iff_eq_none] at hm
    obtain ⟨v, hops, he | ⟨scope, he⟩⟩ := State.report_cases s (.forwarded n)
    · have he : State.forwardedReport s n = v := he
      exact he ▸ (State.StoresAside.of_ops (fun _ _ => ReportOp.aside) hops).step hs
    · have he : State.forwardedReport s n = State.resetBy v scope := he
      have haside : State.StoresAside s v := .of_ops (fun _ _ => ReportOp.aside) hops
      exact he ▸ (haside.trans (State.resetBy_aside v scope (haside.current.trans hm.1.1))).step hs
  | localFrameBegan hr hm hd =>
    obtain ⟨hsteady, hslips⟩ := State.beginLocalFrame_steady (hport hr) hd hm
    refine ⟨(State.followSteady_iff _).2 fun _ => ?_, fun _ _ _ => hslips⟩
    rwa [RingOut.payloadOpen, State.beginLocalFrame_frame]
  | externalStarted hr hm =>
    refine .of_mode ?_
    rw [State.externalStart, State.beginLocalFrame_port]
    show (if _ then _ else _ : State).port.mode ≠ _
    split <;> exact fun hf => (nomatch hm.symm.trans hf)
  | localFrameCompleted add hr =>
    by_cases hm : s.port.mode = .follow
    · obtain ⟨hsteady, hslips, -⟩ := State.completeLocalFrame_steady (hport hr) add hm
      refine ⟨(State.followSteady_iff _).2 fun _ => ?_, fun _ _ _ => hslips⟩
      rwa [RingOut.payloadOpen, State.completeLocalFrame_frame]
    · exact .of_mode (by rwa [State.completeLocalFrame_mode])
  | localTimingLost hr hd =>
    simp only [LocalPort.lossDue, Bool.and_eq_true, decide_eq_true_eq] at hd
    exact .of_mode fun hf => (nomatch hd.1.1.symm.trans hf)
  | expired cls hr hd => exact State.StoresAside.step {} hs
  | requestTaken hr => exact (State.StoresAside.of_ops (fun _ _ => RequestOp.aside) (State.take_ops s)).step hs
  | delivered c d op params hc =>
    exact (State.StoresAside.of_ops (fun _ _ => RequestOp.aside) (State.deliver_ops s d op params)).step hs

end Sys2Proof.Machine

namespace Sys2Proof.Proofs

open Sys2Proof Sys2Proof.Machine

set_option Elab.async false

/-- Settles O50. -/
theorem followNeverSlips : Obligations.FollowNeverSlips := by
  intro s t hs h
  obtain ⟨-, rfl⟩ | ⟨c, rest, -, hx⟩ := step_cases h
  · exact ⟨hs, fun _ _ _ => ⟨.inl rfl, .inl rfl⟩⟩
  · obtain ⟨hsteady, hslips⟩ := (ran_of_exec hx).steadyStep hs
    refine ⟨hsteady, fun hr hm hm' => ?_⟩
    have hkept := hslips hr hm hm'
    exact ⟨hkept .dropSlips rfl, hkept .addSlips rfl⟩

/-- Settles O58. -/
theorem resetMeetsTheInvariants : Obligations.ResetMeetsTheInvariants := by
  obtain ⟨hport, hdrop, hadd⟩ := LocalPort.hardware_sound
  refine ⟨MapStore.hardware_sound, hport, hdrop, hadd, (fun _ hm => nomatch hm), watchesHardware_sound,
    ?service, State.choiceSound_of_none rfl, EventUnit.hardware_sound, ?notifier, ?engine,
    State.hardware_alignerSound rfl rfl, ?ringOut, ?packets⟩
  case service => exact ⟨Nat.zero_le _, Nat.zero_le _, rfl, nofun, rfl, nofun, rfl, Nat.zero_le _, rfl⟩
  case notifier => exact EventUnit.NotifierFits.of_quiet rfl (fun c => by simp [State.reset, State.hardware, EventUnit.hardware]) rfl rfl
  case engine => exact ⟨Nat.zero_le _, Nat.zero_le _, .nil, rfl⟩
  case ringOut => exact ⟨rfl, rfl, rfl, fun _ => ⟨rfl, rfl⟩⟩
  case packets =>
    rw [State.packetsFit_iff]
    exact ⟨⟨nofun, rfl⟩, ⟨fun c => by simp [State.reset, State.hardware, EventUnit.hardware], rfl⟩, rfl⟩

end Sys2Proof.Proofs

/-! SUPPORT. The search in HUNT and the test in CONFIRM (R16 to R18). -/

namespace Sys2Proof.Machine

set_option Elab.async false

/-- A frame with the sync word whose check passes (R16, R17). -/
def Frame.Passes (f : Frame) : Prop := f.sync = 0x9C7#12 ∧ f.check = checkOf (Frame.covered f)

theorem Frame.checkPasses_iff (f : Frame) : Frame.checkPasses f = true ↔ f.check = checkOf (Frame.covered f) := by
  rw [Frame.checkPasses, decide_eq_true_eq, eq_comm]
  rfl

theorem Frame.passes_iff (f : Frame) : (Frame.syncFound f && Frame.checkPasses f) = true ↔ Frame.Passes f := by
  rw [Bool.and_eq_true, Frame.checkPasses_iff]
  exact and_congr_left fun _ => decide_eq_true_iff

theorem Frame.bits_injective : Function.Injective Frame.bits := fun f g h => by
  rw [← Frame.ofBits_bits f, h, Frame.ofBits_bits]

/-! ### The search of kept bits (R16, R18) -/

/-- The bits begin with a frame that passes. -/
def BeginsWithPassing (bs : List Bool) (g : Frame) (behind : List Bool) : Prop := bs = Frame.bits g ++ behind ∧ Frame.Passes g

/-- What the search asks at one place of the kept bits (R16). -/
def passesHere (bs : List Bool) : Bool :=
  bs.take 12 = bitsOf syncWord && 1240 ≤ bs.length && Frame.checkPasses (Frame.ofBits (bs.take 1240))

theorem passesHere_iff (bs : List Bool) : passesHere bs = true ↔ ∃ g behind, BeginsWithPassing bs g behind := by
  simp only [passesHere, Bool.and_eq_true, decide_eq_true_eq, Frame.checkPasses_iff]
  constructor
  · rintro ⟨⟨hsync, hlength⟩, hcheck⟩
    have hbits : Frame.bits (Frame.ofBits (bs.take 1240)) = bs.take 1240 :=
      Frame.bits_ofBits (by rw [List.length_take]; omega)
    refine ⟨Frame.ofBits (bs.take 1240), bs.drop 1240, by rw [hbits, List.take_append_drop], ?_, hcheck⟩
    have hfirst : bitsOf (Frame.ofBits (bs.take 1240)).sync = (Frame.bits (Frame.ofBits (bs.take 1240))).take 12 := by
      rw [Frame.bits, List.append_assoc, List.take_left' (length_bitsOf _)]
    rw [hbits, List.take_take, Nat.min_eq_left (by decide), hsync] at hfirst
    exact bitsOf_injective hfirst
  · rintro ⟨g, behind, rfl, hsync, hcheck⟩
    have htake : (Frame.bits g ++ behind).take 1240 = Frame.bits g := List.take_left' (Frame.length_bits g)
    refine ⟨⟨?_, by rw [List.length_append, Frame.length_bits]; omega⟩, by rwa [htake, Frame.ofBits_bits]⟩
    rw [Frame.bits, List.append_assoc, List.append_assoc, List.take_left' (length_bitsOf _), hsync]
    rfl

theorem searchKept_cons (b : Bool) (bs : List Bool) :
    searchKept (b :: bs) =
      if passesHere (b :: bs) then some (Frame.ofBits ((b :: bs).take 1240), (b :: bs).drop 1240) else searchKept bs := rfl

theorem searchKept_of_here {bs : List Bool} {g : Frame} {behind : List Bool} (h : BeginsWithPassing bs g behind) :
    searchKept bs = some (g, behind) := by
  have hhere := (passesHere_iff bs).2 ⟨g, behind, h⟩
  obtain ⟨rfl, -⟩ := h
  have htake : (Frame.bits g ++ behind).take 1240 = Frame.bits g := List.take_left' (Frame.length_bits g)
  have hdrop : (Frame.bits g ++ behind).drop 1240 = behind := List.drop_left' (Frame.length_bits g)
  obtain ⟨b, bs, hcons⟩ : ∃ b bs, Frame.bits g ++ behind = b :: bs := by
    refine List.exists_cons_of_ne_nil fun hnil => ?_
    have := congrArg List.length hnil
    rw [List.length_append, Frame.length_bits, List.length_nil] at this
    omega
  rw [hcons] at hhere htake hdrop ⊢
  rw [searchKept_cons, if_pos hhere, htake, hdrop, Frame.ofBits_bits]

/-- The search passes over the bits before the first frame that passes. -/
theorem searchKept_skip {front rest : List Bool}
    (h : ∀ front' g behind, front'.length < front.length → front ++ rest = front' ++ Frame.bits g ++ behind →
      ¬Frame.Passes g) : searchKept (front ++ rest) = searchKept rest := by
  induction front with
  | nil => rfl
  | cons b front ih =>
    have hnot : ¬passesHere (b :: (front ++ rest)) = true := by
      rw [passesHere_iff]
      rintro ⟨g, behind, hbits, hpasses⟩
      exact h [] g behind (Nat.succ_pos _) hbits hpasses
    rw [List.cons_append, searchKept_cons, if_neg hnot]
    refine ih fun front' g behind hlt heq => h (b :: front') g behind (Nat.succ_lt_succ hlt) ?_
    rw [List.cons_append, heq]
    rfl

theorem searchKept_nil_of_short {bs : List Bool} (h : ∀ front g behind, bs = front ++ Frame.bits g ++ behind → ¬Frame.Passes g) :
    searchKept bs = none := by
  have := searchKept_skip (front := bs) (rest := []) fun front' g behind _ heq => h front' g behind (by simpa using heq)
  rwa [List.append_nil] at this

theorem State.substituteInEmission_eq (s : State) :
    State.substituteInEmission s = s.ringOut.current.any (·.substitute) := by
  unfold State.substituteInEmission
  cases s.ringOut.current <;> rfl

/-! ### The frame at the expected position (R17, R18) -/

theorem frameThrough_bits (kept : List Bool) (f : Frame) :
    Frame.bits (frameThrough kept f) = (kept ++ (Frame.bits f).drop kept.length).take 1240 := by
  cases kept with
  | nil => exact (List.take_of_length_le (Frame.length_bits f).le).symm
  | cons b bs =>
    refine Frame.bits_ofBits ?_
    rw [List.length_take, List.length_append, List.length_drop, Frame.length_bits]
    omega

theorem State.confirms_iff (s : State) (f : Frame) :
    State.confirms s f = true ↔
      f.sync = 0x9C7#12 ∧ f.check = checkOf (Frame.covered f) ∧ f.number = successor s.aligner.flywheel := by
  rw [State.confirms, Bool.and_eq_true, Frame.passes_iff, decide_eq_true_eq, Frame.Passes, and_assoc]

end Sys2Proof.Machine

namespace Sys2Proof.Proofs

open Sys2Proof Sys2Proof.Machine

set_option Elab.async false

/-- Settles O9: the search stops at the first place where a frame that passes begins. -/
theorem huntTakesACandidate : Obligations.HuntTakesACandidate := by
  intro s f hr ha passes accepted searched
  have hexec (candidate : Option Frame) :
      exec (.huntCandidate candidate) s = .next (State.huntFor s candidate) := takenWhen_next hr (decide_eq_true ha) _
  refine ⟨fun front g behind hkept hpasses hfirst candidate => ?_, fun hnone => ?_⟩
  · have hfound : searchKept s.aligner.keptBits = some (g, behind) := by
      rw [hkept, List.append_assoc, searchKept_skip, searchKept_of_here ⟨rfl, hpasses⟩]
      intro front' h behind' hlt heq hpasses'
      rw [← List.append_assoc, ← hkept] at heq
      exact absurd (hfirst front' h behind' heq hpasses') (not_le.2 hlt)
    rw [hexec, State.huntFor, hfound]
    rfl
  · have hsearch : searchKept s.aligner.keptBits = none := searchKept_nil_of_short hnone
    refine ⟨fun hpasses => ?_, fun hfails => ?_, ?_⟩
    · rw [hexec, State.huntFor, hsearch]
      exact congrArg _ (if_pos ((Frame.passes_iff f).2 hpasses))
    · rw [hexec, State.huntFor, hsearch]
      exact congrArg _ (if_neg (mt (Frame.passes_iff f).1 hfails))
    · rw [hexec, State.huntFor, hsearch]

/-- Settles O10. -/
theorem confirmTestsAFrame : Obligations.ConfirmTestsAFrame := by
  intro s f hr ha kept
  have hexec : exec (.confirmFrame f) s = .next (State.confirmWith s f) := takenWhen_next hr (decide_eq_true ha) _
  refine ⟨frameThrough kept f, frameThrough_bits kept f, fun hnil => by rw [hnil]; rfl, fun hpasses => ⟨fun hzero => ?_,
    fun hone => ?_⟩, fun hfails => ?_⟩
  · rw [hexec, State.confirmWith, State.testFrame, if_pos ((State.confirms_iff s _).2 hpasses), if_neg (by omega)]
  · rw [hexec, State.confirmWith, State.testFrame, if_pos ((State.confirms_iff s _).2 hpasses), if_pos hone.ge,
      State.gainAlignment, State.substituteInEmission_eq]
    rfl
  · rw [hexec, State.confirmWith, State.testFrame, if_neg (mt (State.confirms_iff s _).1 hfails), List.drop_one]

end Sys2Proof.Proofs

/-! SUPPORT. Requests as commands: what the delivery of an addressed and of a broadcast request comes to (R114, R133 to R137),
and the settlement of O33 to O36, O44, O45 and O46. -/

namespace Sys2Proof.Machine

set_option Elab.async false

/-! ### An addressed request that is answered at once -/

section
variable {s : State} {d : Delivery} {c : Instr} {op : Operation} {params : List Octet}

theorem exec_answers {u : State} {k : ReplyCode} {contents : List Octet} (hc : deliveredBy c = some (d, op, params))
    (h : State.AddressedReady s d) (hp : params.length ≤ 56) (hop : op ≠ .resetNode)
    (ha : ∀ destination, answer (Delivery.request d destination .addressed op params) s = ⟨k, contents, u⟩) :
    exec c s = .next (State.answered u d op k contents false) := by
  rw [exec_of_deliveredBy hc, State.deliver_answered s d op params _ h hp ha, decide_eq_false hop, Bool.false_and]

/-- A request that is refused with a code alone changes nothing but by its reply (R138, R140). -/
theorem exec_refuses {k : ReplyCode} (hc : deliveredBy c = some (d, op, params)) (h : State.AddressedReady s d)
    (hp : params.length ≤ 56) (hop : op ≠ .resetNode)
    (ha : ∀ destination, answer (Delivery.request d destination .addressed op params) s = Answer.refuse s k) :
    exec c s = .next (State.answered s d op k [] false) :=
  exec_answers hc h hp hop ha

/-! ### The arrival of a delivered request -/

theorem State.deliver_arrives {destination : Octet} (hr : s.resetN = true)
    (hd : State.consumedAs s d.form = some destination) (hp : params.length ≤ 56) :
    State.deliver s d op params =
      State.arrive (State.numberUsed s d.form) (Delivery.request d destination (State.classFor s d.form) op params) := by
  simp only [State.deliver, hr, hd, Nat.not_lt.2 hp, Bool.not_true, Bool.false_eq_true, if_false]
  rfl

theorem State.deliver_addressed {destination : Octet} (hr : s.resetN = true) (hd : State.consumesAt s d destination)
    (hp : params.length ≤ 56) :
    State.deliver s d op params = State.arrive s (Delivery.request d destination .addressed op params) := by
  obtain ⟨hf, x, hx, rfl⟩ | ⟨hf, x, hx, rfl⟩ := hd
  · have hdest : State.consumedAs s d.form = some (stationOfAddress x) := by rw [hf]; simp [State.consumedAs, hx]
    rw [State.deliver_arrives hr hdest hp, hf]; rfl
  · have hdest : State.consumedAs s d.form = some (stationOfPosition x) := by rw [hf]; simp [State.consumedAs, hx]
    rw [State.deliver_arrives hr hdest hp, hf]; rfl

/-- The broadcast request that a delivery brings: destination 63, under the next number (R127, R133). -/
abbrev State.broadcastRequest (s : State) (d : Delivery) (op : Operation) (params : List Octet) : Request :=
  Delivery.request d 0x3F#8 (.broadcast s.service.nextRequest false) op params

theorem State.deliver_broadcast (hr : s.resetN = true) (hf : d.form = .broadcast) (hp : params.length ≤ 56) :
    State.deliver s d op params = State.arrive (State.numbered s) (State.broadcastRequest s d op params) := by
  have hdest : State.consumedAs s d.form = some 0x3F#8 := by rw [hf]; rfl
  rw [State.deliver_arrives hr hdest hp, hf]; rfl

theorem Delivery.discarded_broadcast (destination : Octet) (n : Nat) (b : Bool) :
    Request.discardedBroadcast (Delivery.request d destination (.broadcast n b) op params) =
      !Operation.executedWhenBroadcast op := by
  simp [Request.discardedBroadcast, Delivery.request]

theorem Operation.inSubset_iff (op : Operation) : Operation.inSubset op ↔ Operation.executedWhenBroadcast op = true := by
  cases op <;> decide

/-- A broadcast outside the executed subset uses up its number and nothing else (R133, log entry 10). -/
theorem State.deliver_outside (hr : s.resetN = true) (hf : d.form = .broadcast) (hp : params.length ≤ 56)
    (ho : Operation.executedWhenBroadcast op = false) : State.deliver s d op params = State.numbered s := by
  have hdis : Request.discardedBroadcast (State.broadcastRequest s d op params) = true := by
    rw [Delivery.discarded_broadcast, ho]; rfl
  rw [State.deliver_broadcast hr hf hp, State.arrive, if_pos hdis]

theorem exec_outside (hc : deliveredBy c = some (d, op, params)) (h : State.BroadcastReady s d) (hp : params.length ≤ 56)
    (ho : Operation.executedWhenBroadcast op = false) : exec c s = .next (State.numbered s) := by
  obtain ⟨hr, hf, -⟩ := h
  rw [exec_of_deliveredBy hc, State.deliver_outside hr hf hp ho]

/-! ### A broadcast request that is taken at once -/

/-- The node as a broadcast request is executed: its sequence stands in the broadcast cache and its number is used up (R143). -/
def State.cached (s : State) (sequence : Octet) : State :=
  { s with service := { s.service with nextRequest := s.service.nextRequest + 1 }
           engine := { s.engine with broadcastCache := some sequence } }

theorem State.deliver_taken (h : State.BroadcastReady s d) (hp : params.length ≤ 56)
    (ho : Operation.executedWhenBroadcast op = true) :
    State.deliver s d op params =
      (let r := State.broadcastRequest s d op params
       let a := answer r (State.cached s d.sequence)
       let u := State.recordRefusal a.after r a.code
       { u with events := EventUnit.requestTaken u.engine.address u.events }) := by
  obtain ⟨hr, hf, hq, hpend, hcache⟩ := h
  have hdis : Request.discardedBroadcast (State.broadcastRequest s d op params) = false := by
    rw [Delivery.discarded_broadcast, ho]; rfl
  have hjoin := State.arrive_eq (State.numbered s) (State.broadcastRequest s d op params)
  have hdup : Engine.holdsDuplicate (State.numbered s).engine (State.broadcastRequest s d op params) = false := by
    simp [Engine.holdsDuplicate, hq]
  have htake : State.arrive (State.numbered s) (State.broadcastRequest s d op params) =
      State.take (State.joined (State.numbered s) (State.broadcastRequest s d op params)) := by
    rcases hjoin with ⟨hno | hno, -⟩ | ⟨-, -, ⟨hlong, -⟩ | ⟨-, he⟩⟩
    · rw [hdis] at hno; cases hno
    · rw [hdup] at hno; cases hno
    · simp [hq] at hlong
    · exact he
  have hemptied : { s.engine with requests := [] } = s.engine := congrArg State.engine (State.requests_eq s hq)
  rw [State.deliver_broadcast hr hf hp, htake]
  simp only [State.take, State.joined, State.numbered_engine, hq, List.nil_append, Engine.mayTake, hpend, Option.isNone_none,
    Bool.true_and, if_true, State.handle, Delivery.request, State.handleBroadcast, hcache, if_false]
  rw [← hpend, ← hq]
  rfl

/-- A broadcast request that is executed with OK changes the node as its operation does and takes no reply (R143). -/
theorem exec_broadcast_ok {contents : List Octet} {u : State} (hc : deliveredBy c = some (d, op, params))
    (h : State.BroadcastReady s d) (hp : params.length ≤ 56) (ho : Operation.executedWhenBroadcast op = true)
    (ha : answer (State.broadcastRequest s d op params) (State.cached s d.sequence) = ⟨.ok, contents, State.cached u d.sequence⟩) :
    exec c s = .next (State.tookBroadcast u d) := by
  rw [exec_of_deliveredBy hc, State.deliver_taken h hp ho]
  simp only [ha, State.recordRefusal, ne_eq, not_true_eq_false, false_and, if_false]
  rfl

/-- A broadcast switch request that is refused records SWITCH_REFUSED with its operation and code (R68, R143). -/
theorem exec_broadcast_refused {contents : List Octet} {k : ReplyCode} (hc : deliveredBy c = some (d, op, params))
    (h : State.BroadcastReady s d) (hp : params.length ≤ 56) (ho : op = .scheduleSwitch ∨ op = .cancelSwitch) (hk : k ≠ .ok)
    (ha : answer (State.broadcastRequest s d op params) (State.cached s d.sequence) =
      ⟨k, contents, State.cached s d.sequence⟩) :
    exec c s = .next (State.tookBroadcast { s with
      events := EventUnit.post s.aligner.flywheel.superframe s.engine.address .switchRefused none
        (some (Operation.number op ++ ReplyCode.octet k ++ 0#8)) s.events } d) := by
  have hexec : Operation.executedWhenBroadcast op = true := by rcases ho with rfl | rfl <;> rfl
  have hrec : (operationOf (State.broadcastRequest s d op params).packet.operation = some .scheduleSwitch ∨
      operationOf (State.broadcastRequest s d op params).packet.operation = some .cancelSwitch) := by
    simpa [Delivery.request] using ho
  rw [exec_of_deliveredBy hc, State.deliver_taken h hp hexec]
  simp only [ha, State.recordRefusal, hk, ne_eq, not_false_eq_true, hrec, and_self, if_true]
  rfl

end

end Sys2Proof.Machine

/-! SUPPORT. The node requests (R146 to R148, R178, R181, R191, R194) and the settlement of O33 to O36. -/

namespace Sys2Proof.Machine

set_option Elab.async false

/-! ### The flags of an octet (spec/12 12.7) -/

theorem octetOfFlags_getLsbD (v : Vector Bool 8) (c : ClassId) : (octetOfFlags v).getLsbD c.val = v[c] := by
  have hbit (b : Bool) (k : Nat) (hk : k < 8) (j : ClassId) :
      (octetOfBool b <<< k).getLsbD j.val = (decide (j.val = k) && b) := by
    cases b
    · simp [octetOfBool]
    · interval_cases k <;> revert j <;> decide
  have hfold (is : List (Fin 8)) (o : Octet) :
      ((is.foldl (fun o i => o ||| (octetOfBool v[i] <<< i.val)) o).getLsbD c.val) =
        (o.getLsbD c.val || is.any fun i => decide (c.val = i.val) && v[i]) := by
    induction is generalizing o with
    | nil => simp
    | cons i is ih => rw [List.foldl_cons, ih, BitVec.getLsbD_or, hbit _ _ i.isLt, List.any_cons, Bool.or_assoc]
  rw [octetOfFlags, hfold]
  cases hv : v[c] with
  | false =>
    simp only [BitVec.getLsbD_zero, Bool.false_or, List.any_eq_false, List.mem_finRange, forall_const, Bool.and_eq_true,
      decide_eq_true_eq, not_and]
    intro i hi
    rw [← Fin.ext hi, hv]
    exact Bool.false_ne_true
  | true =>
    simp only [BitVec.getLsbD_zero, Bool.false_or, List.any_eq_true, Bool.and_eq_true, decide_eq_true_eq]
    exact ⟨c, List.mem_finRange c, rfl, hv⟩

/-! ### Operations that carry no parameters -/

theorem answerIdentify_of_params {params : List Octet} (h : params ≠ []) (s : State) :
    answerIdentify params s = Answer.refuse s .badLength := by
  rw [answerIdentify, if_neg (mt List.isEmpty_iff.1 h)]

theorem answerReadStatus_of_params {params : List Octet} (h : params ≠ []) (s : State) :
    answerReadStatus params s = Answer.refuse s .badLength := by
  rw [answerReadStatus, if_neg (mt List.isEmpty_iff.1 h)]

/-- The status octets from the lost counts on, and those behind the eight of them (spec/12 12.7). -/
theorem State.statusOctets_drop (s : State) :
    let behind := [octetOf s.engine.requests.length, octetOf s.engine.replies.length] ++
      octets16 (BitVec.ofNat 16 (s.service.transit.map fun p => p.held.length).sum)
    (State.statusOctets s).drop 22 = s.events.lost.toList ++ behind ∧ (State.statusOctets s).drop 30 = behind := by
  intro behind
  obtain ⟨front, hfront, hsplit⟩ : ∃ front : List Octet, front.length = 22 ∧
      State.statusOctets s = front ++ (s.events.lost.toList ++ behind) :=
    ⟨_, rfl, (List.append_assoc _ _ _).trans (List.append_assoc _ _ _)⟩
  have hlost : (State.statusOctets s).drop 22 = s.events.lost.toList ++ behind := by
    rw [hsplit]; exact List.drop_left' hfront
  refine ⟨hlost, ?_⟩
  rw [show 30 = 22 + 8 by rfl, ← List.drop_drop, hlost]
  exact List.drop_left' (by simp)

/-! ### ASSIGN_ADDRESS (R191) -/

theorem answerAssignAddress_of_length {params : List Octet} (h : params.length ≠ 1) (s : State) :
    answerAssignAddress params s = Answer.refuse s .badLength := by
  match params, h with
  | [], _ => rfl
  | [_], h => exact absurd rfl h
  | _ :: _ :: _, _ => rfl

theorem EventUnit.requestTaken_notifier (a : BitVec 6) (ev : EventUnit) :
    (EventUnit.requestTaken (some a) ev).notifier = .active := by
  have hleft : (EventUnit.leaveQuiet (some a) ev).notifier = .active := by
    unfold EventUnit.leaveQuiet
    cases hn : ev.notifier <;> simp [hn]
  unfold EventUnit.requestTaken
  rcases EventUnit.test_cases (some a) (EventUnit.leaveQuiet (some a) ev) with e | ⟨c, v, -, -, -, -, e⟩ | ⟨c, b, -, -, -, -, -, e⟩
  all_goals rw [e]; exact hleft

/-! ### READ_COUNTERS (R174, R178, R179) -/

/-- The counters in the order of READ_COUNTERS (R174). -/
theorem counters_toList (cs : Counters) :
    cs.toList = [CounterName.checkErrors, .syncErrors, .sequenceErrors, .markedFrames, .alignLosses, .dropSlips, .addSlips,
      .serviceAborts, .transitOverflows, .badPackets, .requestsDropped].map fun k => cs[k.index] := by
  obtain ⟨⟨l⟩, hl⟩ := cs
  match l, hl with
  | [a, b, c, d, e, f, g, h, i, j, k], _ => rfl

end Sys2Proof.Machine

namespace Sys2Proof.Proofs

open Sys2Proof Sys2Proof.Machine

set_option Elab.async false

/-- Settles O33: an empty IDENTIFY is answered with the node's octets, any other is refused, and a broadcast is outside the
executed subset. -/
theorem identifyAnswers : Obligations.IdentifyAnswers := by
  intro s d
  refine ⟨fun h => ?_, fun h params hne hp => ?_, fun h params hp => ?_⟩
  · exact exec_answers (params := []) rfl h (Nat.zero_le _) (by decide) fun _ => rfl
  · exact exec_refuses rfl h hp (by decide) fun _ => answerIdentify_of_params hne s
  · exact exec_outside rfl h hp rfl

/-- Settles O34: the value decides between the new address and a refusal, and the new address stands before the Event Unit is
told of the taking. -/
theorem assignAddressIsExecuted : Obligations.AssignAddressIsExecuted := by
  intro s d h
  refine ⟨fun a hlow hhigh => ?accepted, fun a ha => ?value, fun params hl hp => ?length⟩
  case accepted =>
    have hexec : exec (.assignAddress d [a]) s = .next
        (State.answered { s with engine := { s.engine with address := some (a.extractLsb' 0 6) } } d .assignAddress .ok
          [a, match s.aligner.position with | some p => 0#2 ++ p | none => 0xFF#8] false) :=
      exec_answers rfl h (by decide : (1 : Nat) ≤ 56) (by decide) fun _ => if_pos ⟨hlow, hhigh⟩
    refine ⟨hexec, fun t ht => ?_⟩
    cases hexec.symm.trans ht
    exact ⟨EventUnit.requestTaken_notifier _ _, rfl⟩
  case value =>
    exact exec_refuses rfl h (by decide : (1 : Nat) ≤ 56) (by decide) fun _ => if_neg (by omega)
  case length => exact exec_refuses rfl h hp (by decide) fun _ => answerAssignAddress_of_length hl s

/-- Settles O35: the octets of the answer are those of `State.statusOctets`, read place by place. -/
theorem readStatusAnswers : Obligations.ReadStatusAnswers := by
  intro s d h
  have hempty : s.engine.requests = [] := h.2.2.2.1
  have hexec : exec (.readStatus d []) s = .next (State.answered s d .readStatus .ok (State.statusOctets s) false) :=
    exec_answers (params := []) rfl h (Nat.zero_le _) (by decide) fun _ => rfl
  have hshadow : (State.statusOctets s |>.drop 11).take 3 =
      ShadowState.code s.mapStore.shadow :: octets16 ((ShadowState.target s.mapStore.shadow).getD 0#16) := rfl
  refine ⟨fun params hne hp => exec_refuses rfl h hp (by decide) fun _ => answerReadStatus_of_params hne s,
    _, hexec, State.statusOctets_length s, rfl, rfl, rfl, rfl, rfl, rfl, rfl, rfl, rfl, ?_, rfl, rfl, rfl,
    ⟨_, rfl, fun c => ?_⟩, rfl, ?_⟩
  · rw [hshadow]
    cases s.mapStore.shadow <;> rfl
  · rw [octetOfFlags_getLsbD]; simp
  · obtain ⟨hlost, hbehind⟩ := State.statusOctets_drop s
    rw [hempty] at hlost hbehind
    refine ⟨fun c => ?_, ?_, ?_, ?_⟩
    · rw [← List.getElem?_drop, hlost, List.getElem?_append_left (by simp)]
      simp
    · rw [show 30 = 30 + 0 by rfl, ← List.getElem?_drop, hbehind]; rfl
    · rw [show 31 = 30 + 1 by rfl, ← List.getElem?_drop, hbehind]; rfl
    · rw [show 32 = 30 + 2 by rfl, ← List.drop_drop, hbehind]; rfl

/-- Settles O36: the reserved bits of the clear octet play no part, and its flag alone decides what is left of the counters. -/
theorem readCountersAnswers : Obligations.ReadCountersAnswers := by
  intro s d reserved h
  dsimp only
  have hvalues : s.counters.toList.flatMap octets16 = [CounterName.checkErrors, .syncErrors, .sequenceErrors, .markedFrames,
      .alignLosses, .dropSlips, .addSlips, .serviceAborts, .transitOverflows, .badPackets, .requestsDropped].flatMap fun k =>
        [s.counters[k.index].extractLsb' 8 8, s.counters[k.index].extractLsb' 0 8] := by
    rw [counters_toList, List.flatMap_map]; rfl
  have hflag (b : Bool) : (reserved ++ BitVec.ofBool b).getLsbD 0 = b := by rw [BitVec.getLsbD_append]; simp
  have hanswer (b : Bool) : answerReadCounters [reserved ++ BitVec.ofBool b] s =
      ⟨.ok, s.counters.toList.flatMap octets16, if b then { s with counters := countersHardware } else s⟩ := by
    simp only [answerReadCounters, hflag]
  rw [← hvalues]
  refine ⟨exec_answers rfl h (by decide : (1 : Nat) ≤ 56) (by decide) fun _ => hanswer false,
    countersHardware, fun k => by simp [countersHardware],
    exec_answers rfl h (by decide : (1 : Nat) ≤ 56) (by decide) fun _ => hanswer true⟩

end Sys2Proof.Proofs

/-! SUPPORT. The node settings (R146 to R148), the shadow bank's copy and check (R42 to R44), the schedule of a switch (R57 to R61)
and the settlement of O37 and O39 to O41. -/

namespace Sys2Proof.Machine

set_option Elab.async false

/-! ### Words as octets -/

theorem word16_octets16 (x : BitVec 16) : word16 (x.extractLsb' 8 8) (x.extractLsb' 0 8) = x := by
  refine BitVec.eq_of_getLsbD_eq fun i hi => ?_
  simp only [word16, BitVec.getLsbD_append, BitVec.getLsbD_extractLsb']
  grind

theorem word24_octets24 (x : Sample) : word24 (x.extractLsb' 16 8) (x.extractLsb' 8 8) (x.extractLsb' 0 8) = x := by
  refine BitVec.eq_of_getLsbD_eq fun i hi => ?_
  simp only [word24, BitVec.getLsbD_append, BitVec.getLsbD_extractLsb']
  grind

/-! ### Node settings (R146 to R148) -/

section
variable {s : State} {d : Delivery} {c : Instr} {params : List Octet}

theorem exec_setup {n : NodeSettings} (hc : deliveredBy c = some (d, .writeNodeSetup, params)) (h : State.AddressedReady s d)
    (hl : params.length = 9) (hn : nodeSettingsOf params = some n) :
    exec c s = .next (State.answered (State.applySettings s n) d .writeNodeSetup .ok
      (State.settingOctets (State.applySettings s n)) false) :=
  exec_answers hc h (by omega) (by decide) fun _ => by
    change answerWriteNodeSetup params s = _
    simp only [answerWriteNodeSetup, hl, hn, if_true]

theorem exec_setup_refused (hc : deliveredBy c = some (d, .writeNodeSetup, params)) (h : State.AddressedReady s d)
    (hl : params.length = 9) (hn : nodeSettingsOf params = none) :
    exec c s = .next (State.answered s d .writeNodeSetup .badParameter [] false) :=
  exec_refuses hc h (by omega) (by decide) fun _ => by
    change answerWriteNodeSetup params s = _
    simp only [answerWriteNodeSetup, hl, hn, if_true]

end

/-- The settings that nine octets select, by the five flags of the select octet (R146, R147). -/
theorem nodeSettingsOf_flags {sel : Octet} (b0 b1 b2 b3 b4 : Bool) (w2 w1 w0 t1 t0 re mo rt : Octet)
    (h : [sel.getLsbD 0, sel.getLsbD 1, sel.getLsbD 2, sel.getLsbD 3, sel.getLsbD 4] = [b0, b1, b2, b3, b4]) :
    nodeSettingsOf [sel, w2, w1, w0, t1, t0, re, mo, rt] =
      if fieldPasses b1 ((word16 t1 t0).toNat ≤ 1023) && fieldPasses b2 (rehuntOf re).isSome &&
          fieldPasses b3 (localModeOf mo).isSome && fieldPasses b4 (1 ≤ rt.toNat) then
        some { idleWord := if b0 then some (word24 w2 w1 w0) else none
               threshold := if b1 then some (word16 t1 t0).toNat else none
               forcedRehunt := if b2 then rehuntOf re else none
               localMode := if b3 then localModeOf mo else none
               retryTime := if b4 then some rt else none }
      else none := by
  cases h; rfl

theorem rehuntOf_large {o : Octet} (h : 2 ≤ o.toNat) : rehuntOf o = none := by
  unfold rehuntOf
  split <;> first | omega | rfl

theorem localModeOf_large {o : Octet} (h : 3 ≤ o.toNat) : localModeOf o = none := by
  unfold localModeOf
  split <;> first | omega | rfl

/-! ### The shadow bank by its letter (R36) -/

theorem MapStore.shadowBank_eq (m : MapStore) :
    MapStore.shadowBank m = match m.active with | .a => m.bankB | .b => m.bankA := by
  cases h : m.active <;> simp only [MapStore.shadowBank, MapStore.shadowName, h, BankName.other, MapStore.bank]

/-! ### Conflicts (R43, R44) -/

theorem Action.dropChannel_iff (a : Action) (c : Channel) :
    Action.dropChannel a = some c ↔ a = .tap c ∨ a = .terminate c := by
  cases a <;> simp [Action.dropChannel]

theorem Bank.mem_dropSlots (b : Bank) (c : Channel) (x : Slot) :
    x ∈ Bank.dropSlots b c ↔ b[x].action = .tap c ∨ b[x].action = .terminate c := by
  simp only [Bank.dropSlots, List.mem_filter, List.mem_finRange, true_and, decide_eq_true_eq, Action.dropChannel_iff]

theorem Bank.dropSlots_sorted (b : Bank) (c : Channel) : (Bank.dropSlots b c).Pairwise (· < ·) :=
  (List.sortedLT_finRange 48).pairwise.filter _

/-- The two lowest members of an ascending list. -/
theorem take_two_of_sorted {l : List Slot} {x y : Slot} (hl : l.Pairwise (· < ·)) (hx : x ∈ l) (hy : y ∈ l) (hxy : x < y)
    (hlow : ∀ z ∈ l, z = x ∨ y ≤ z) : l.take 2 = [x, y] := by
  match l with
  | [] => cases hx
  | [a] =>
    rw [List.mem_singleton] at hx hy
    exact absurd hxy (by rw [hx, hy]; exact lt_irrefl a)
  | a :: b :: rest =>
    obtain ⟨ha, hb, -⟩ : (∀ z ∈ b :: rest, a < z) ∧ (∀ z ∈ rest, b < z) ∧ rest.Pairwise (· < ·) := by
      simpa only [List.pairwise_cons] using hl
    have hax : a = x := by
      rcases hlow a List.mem_cons_self with h | h
      · exact h
      · rcases List.mem_cons.1 hx with rfl | hx
        · rfl
        · exact absurd ((ha x hx).trans hxy) (not_lt.2 h)
    have hyb : y ∈ b :: rest := (List.mem_cons.1 hy).resolve_left fun h => absurd hxy (by rw [h, hax]; exact lt_irrefl x)
    have hby : b = y := by
      rcases hlow b (List.mem_cons_of_mem _ List.mem_cons_self) with h | h
      · exact absurd (ha b List.mem_cons_self) (by rw [h, hax]; exact lt_irrefl x)
      · rcases List.mem_cons.1 hyb with rfl | hy
        · rfl
        · exact absurd (hb y hy) (not_lt.2 h)
    rw [hax, hby]; rfl

theorem Bank.inConflict_iff (b : Bank) (c : Channel) :
    Bank.inConflict b c = true ↔ ∃ x y : Slot, x < y ∧ (b[x].action = .tap c ∨ b[x].action = .terminate c) ∧
      (b[y].action = .tap c ∨ b[y].action = .terminate c) := by
  simp only [← Bank.mem_dropSlots, Bank.inConflict, decide_eq_true_eq]
  have hsorted := Bank.dropSlots_sorted b c
  refine ⟨fun h => ?_, fun ⟨x, y, hxy, hx, hy⟩ => ?_⟩
  · match Bank.dropSlots b c, hsorted, h with
    | x :: y :: rest, hs, _ =>
      exact ⟨x, y, (List.pairwise_cons.1 hs).1 y List.mem_cons_self, List.mem_cons_self,
        List.mem_cons_of_mem _ List.mem_cons_self⟩
  · match Bank.dropSlots b c, hx, hy with
    | [a], hx, hy => exact absurd hxy (by rw [List.mem_singleton.1 hx, List.mem_singleton.1 hy]; exact lt_irrefl a)
    | _ :: _ :: _, _, _ => exact Nat.le_add_left 2 _

theorem Bank.firstConflict_eq_some (b : Bank) (c : Channel) (hc : Bank.inConflict b c = true)
    (hlow : ∀ e, e < c → Bank.inConflict b e = false) : Bank.firstConflict b = some c := by
  rw [Bank.firstConflict, ← Fin.find?_eq_find?_finRange, Fin.find?_eq_some_iff]
  exact ⟨hc, hlow⟩

theorem Bank.conflictFree_iff (b : Bank) : Bank.conflictFree b = true ↔ ∀ c, Bank.inConflict b c = false := by
  simp [Bank.conflictFree]

/-! ### Requests that change the shadow (R42, R43, R57, R58, R61) -/

theorem answerCopyActive_of_params {params : List Octet} (h : params ≠ []) (s : State) :
    answerCopyActive params s = Answer.refuse s .badLength := by
  rw [answerCopyActive, if_neg (mt List.isEmpty_iff.1 h)]

theorem answerCheckMap_of_params {params : List Octet} (h : params ≠ []) (s : State) :
    answerCheckMap params s = Answer.refuse s .badLength := by
  rw [answerCheckMap, if_neg (mt List.isEmpty_iff.1 h)]

theorem answerCancelSwitch_of_params {params : List Octet} (h : params ≠ []) (s : State) :
    answerCancelSwitch params s = Answer.refuse s .badLength := by
  rw [answerCancelSwitch, if_neg (mt List.isEmpty_iff.1 h)]

/-- What a shadow that is not PENDING leaves to a COPY_ACTIVE. -/
theorem answerCopyActive_eq {s : State} (h : s.mapStore.shadow = .editable ∨ s.mapStore.shadow = .checked) :
    answerCopyActive [] s =
      ⟨.ok, [], { s with mapStore := MapStore.setShadow s.mapStore (MapStore.activeBank s.mapStore) .checked }⟩ := by
  rcases h with h | h <;> simp only [answerCopyActive, h, List.isEmpty_nil, if_true]

theorem answerCheckMap_free {s : State} (h : s.mapStore.shadow = .editable ∨ s.mapStore.shadow = .checked)
    (hf : Bank.conflictFree (MapStore.shadowBank s.mapStore) = true) :
    answerCheckMap [] s = ⟨.ok, [], { s with mapStore := { s.mapStore with shadow := .checked } }⟩ := by
  have hfirst := (Bank.firstConflict_none _).2 hf
  rcases h with h | h <;> simp only [answerCheckMap, h, hfirst, List.isEmpty_nil, if_true]

theorem answerCheckMap_conflict {s : State} {c : Channel}
    (h : s.mapStore.shadow = .editable ∨ s.mapStore.shadow = .checked)
    (hf : Bank.firstConflict (MapStore.shadowBank s.mapStore) = some c) :
    answerCheckMap [] s = ⟨.conflict, Bank.conflictOctets (MapStore.shadowBank s.mapStore) c,
      { s with mapStore := { s.mapStore with shadow := .editable } }⟩ := by
  rcases h with h | h <;> simp only [answerCheckMap, h, hf, List.isEmpty_nil, if_true]

theorem switchTarget_of_le {form : Octet} (hi lo : Octet) (c : Superframe) (h : form.toNat ≤ 1) :
    switchTarget form hi lo c = some (if form = 0#8 then hi ++ lo else c + 1#16) := by
  obtain rfl | rfl : form = 0#8 ∨ form = 1#8 := by
    rcases Nat.le_one_iff_eq_zero_or_eq_one.1 h with h | h
    · exact .inl (BitVec.eq_of_toNat_eq h)
    · exact .inr (BitVec.eq_of_toNat_eq h)
  · rfl
  · rfl

theorem switchTarget_of_large {form : Octet} (hi lo : Octet) (c : Superframe) (h : 2 ≤ form.toNat) :
    switchTarget form hi lo c = none := by
  unfold switchTarget
  split <;> first | omega | rfl

theorem isAhead_iff (t c : Superframe) : isAhead t c = true ↔ 1 ≤ (t - c).toNat ∧ (t - c).toNat ≤ 32767 := by
  rw [isAhead, Bool.and_eq_true, decide_eq_true_eq, decide_eq_true_eq]

section
variable {s : State} {r : Request} {form hi lo : Octet}

theorem answerScheduleSwitch_of_length (h : r.packet.params.length ≠ 3) :
    answerScheduleSwitch r s = Answer.refuse s .badLength := by
  unfold answerScheduleSwitch
  split
  · next hp => rw [hp] at h; exact absurd rfl h
  · rfl

theorem answerScheduleSwitch_of_form (hp : r.packet.params = [form, hi, lo]) (h : 2 ≤ form.toNat) :
    answerScheduleSwitch r s = Answer.refuse s .badParameter := by
  simp only [answerScheduleSwitch, hp, switchTarget_of_large hi lo _ h]

/-! The answer by the shadow state, once the form has given a target (R58). -/

variable {t : Superframe} (hp : r.packet.params = [form, hi, lo]) (ht : switchTarget form hi lo r.superframe = some t)
include hp ht

theorem answerScheduleSwitch_of_editable (hs : s.mapStore.shadow = .editable) :
    answerScheduleSwitch r s = ⟨.wrongState, [0x00#8], s⟩ := by
  simp only [answerScheduleSwitch, hp, ht, hs, ShadowState.code]

theorem answerScheduleSwitch_of_pending {t' : Superframe} (hs : s.mapStore.shadow = .pending t') :
    answerScheduleSwitch r s = ⟨.wrongState, 0x02#8 :: octets16 t', s⟩ := by
  simp only [answerScheduleSwitch, hp, ht, hs, ShadowState.code]

theorem answerScheduleSwitch_without_time (hs : s.mapStore.shadow = .checked) (hr : r.ringTime = false) :
    answerScheduleSwitch r s = Answer.refuse s .noRingTime := by
  simp only [answerScheduleSwitch, hp, ht, hs, hr, Bool.not_false, if_true]

theorem answerScheduleSwitch_too_late (hs : s.mapStore.shadow = .checked) (hr : r.ringTime = true)
    (ha : isAhead t r.superframe = false) :
    answerScheduleSwitch r s = ⟨.tooLate, octets16 r.superframe ++ octets16 t, s⟩ := by
  simp only [answerScheduleSwitch, hp, ht, hs, hr, ha, Bool.not_true, Bool.false_eq_true, if_false]

theorem answerScheduleSwitch_accepted (hs : s.mapStore.shadow = .checked) (hr : r.ringTime = true)
    (ha : isAhead t r.superframe = true) :
    answerScheduleSwitch r s =
      ⟨.ok, octets16 r.superframe ++ octets16 t, { s with mapStore := { s.mapStore with shadow := .pending t } }⟩ := by
  simp only [answerScheduleSwitch, hp, ht, hs, hr, ha, Bool.not_true, Bool.false_eq_true, if_false, if_true]

end

end Sys2Proof.Machine

namespace Sys2Proof.Proofs

open Sys2Proof Sys2Proof.Machine

set_option Elab.async false

/-- Settles O37: which settings the nine octets select decides the answer, and each row spells octets that select its own. -/
theorem nodeSetupIsWritten : Obligations.NodeSetupIsWritten := by
  intro s d h
  dsimp only
  have flags (sel : Octet) (hsel : sel &&& 0x1F#8 = 0#8) :
      [sel.getLsbD 0, sel.getLsbD 1, sel.getLsbD 2, sel.getLsbD 3, sel.getLsbD 4] = [false, false, false, false, false] := by
    have hbit (i : Nat) := congrArg (BitVec.getLsbD · i) hsel
    have h0 := hbit 0; have h1 := hbit 1; have h2 := hbit 2; have h3 := hbit 3; have h4 := hbit 4
    simp only [BitVec.getLsbD_and] at h0 h1 h2 h3 h4
    simp_all
  refine ⟨fun w => ?idle, fun n hn => ?threshold, fun n hn => ?thresholdRefused, ?rehuntOff, ?rehuntOn, fun o ho => ?rehuntRefused,
    ?disabled, ?follow, ?external, fun o ho => ?modeRefused, fun o ho => ?retry, ?retryRefused,
    fun sel w2 w1 w0 t1 t0 re mo rt hsel => ?none, fun w2 w1 w0 t1 t0 rt ht hrt => ?three, fun w2 w1 w0 t1 t0 re mo => ?refused,
    fun params hl hp => ?length⟩
  case idle =>
    refine (exec_setup (n := ⟨some w, none, none, none, none⟩) rfl h rfl ?_).trans rfl
    refine (nodeSettingsOf_flags true false false false false _ _ _ _ _ _ _ _ (by decide)).trans ?_
    rw [word24_octets24]; rfl
  case threshold =>
    refine (exec_setup (n := ⟨none, some n.toNat, none, none, none⟩) rfl h rfl ?_).trans rfl
    refine (nodeSettingsOf_flags false true false false false _ _ _ _ _ _ _ _ (by decide)).trans ?_
    rw [word16_octets16]
    simp [fieldPasses, hn]
  case thresholdRefused =>
    refine exec_setup_refused rfl h rfl ((nodeSettingsOf_flags false true false false false _ _ _ _ _ _ _ _ (by decide)).trans ?_)
    rw [word16_octets16]
    simp [fieldPasses, show ¬n.toNat ≤ 1023 by omega]
  case rehuntOff => exact (exec_setup (n := ⟨none, none, some false, none, none⟩) rfl h rfl (by rfl)).trans rfl
  case rehuntOn => exact (exec_setup (n := ⟨none, none, some true, none, none⟩) rfl h rfl (by rfl)).trans rfl
  case rehuntRefused =>
    refine exec_setup_refused rfl h rfl ((nodeSettingsOf_flags false false true false false _ _ _ _ _ _ _ _ (by decide)).trans ?_)
    simp [fieldPasses, rehuntOf_large ho]
  case disabled => exact (exec_setup (n := ⟨none, none, none, some .disabled, none⟩) rfl h rfl (by rfl)).trans rfl
  case follow => exact (exec_setup (n := ⟨none, none, none, some .follow, none⟩) rfl h rfl (by rfl)).trans rfl
  case external => exact (exec_setup (n := ⟨none, none, none, some .external, none⟩) rfl h rfl (by rfl)).trans rfl
  case modeRefused =>
    refine exec_setup_refused rfl h rfl ((nodeSettingsOf_flags false false false true false _ _ _ _ _ _ _ _ (by decide)).trans ?_)
    simp [fieldPasses, localModeOf_large ho]
  case retry =>
    refine (exec_setup (n := ⟨none, none, none, none, some o⟩) rfl h rfl ?_).trans rfl
    refine (nodeSettingsOf_flags false false false false true _ _ _ _ _ _ _ _ (by decide)).trans ?_
    simp [fieldPasses, ho]
  case retryRefused => exact exec_setup_refused rfl h rfl (by rfl)
  case none =>
    refine (exec_setup (n := ⟨none, none, none, none, none⟩) rfl h rfl ?_).trans rfl
    exact (nodeSettingsOf_flags false false false false false _ _ _ _ _ _ _ _ (flags sel hsel)).trans rfl
  case three =>
    refine (exec_setup (n := ⟨some (w2 ++ w1 ++ w0), some (t1 ++ t0 : BitVec 16).toNat, none, none, some rt⟩) rfl h rfl ?_).trans rfl
    refine (nodeSettingsOf_flags true true false false true _ _ _ _ _ _ _ _ (by decide)).trans ?_
    have ht' : (word16 t1 t0).toNat ≤ 1023 := ht
    simp only [fieldPasses, ht', hrt]
    rfl
  case refused =>
    refine exec_setup_refused rfl h rfl ((nodeSettingsOf_flags true true true true true _ _ _ _ _ _ _ _ (by decide)).trans ?_)
    simp [fieldPasses]
  case length =>
    exact exec_refuses rfl h hp (by decide) fun _ => if_neg hl

/-- Settles O39: the shadow state decides whether the active bank's entries are copied, and the letter which bank takes them. -/
theorem copyActiveIsExecuted : Obligations.CopyActiveIsExecuted := by
  intro s d h
  refine ⟨fun params hne hp => exec_refuses rfl h hp (by decide) fun _ => answerCopyActive_of_params hne s,
    fun t ht => ?pending, fun hs => ⟨fun ha => ?toB, fun ha => ?toA⟩⟩
  case pending =>
    refine exec_refuses (params := []) rfl h (Nat.zero_le _) (by decide) fun _ => ?_
    change answerCopyActive [] s = _
    simp only [answerCopyActive, ht, List.isEmpty_nil, if_true]
  case toB =>
    refine exec_answers (params := []) rfl h (Nat.zero_le _) (by decide) fun _ => (answerCopyActive_eq hs).trans ?_
    simp only [MapStore.setShadow, MapStore.activeBank, MapStore.bank, ha]
  case toA =>
    refine exec_answers (params := []) rfl h (Nat.zero_le _) (by decide) fun _ => (answerCopyActive_eq hs).trans ?_
    simp only [MapStore.setShadow, MapStore.activeBank, MapStore.bank, ha]

/-- Settles O40: CHECK_MAP looks for the first channel in conflict, and the drop slots of a channel stand in ascending order. -/
theorem checkMapIsExecuted : Obligations.CheckMapIsExecuted := by
  intro s d h shadow drops conflict
  have hshadow : shadow = MapStore.shadowBank s.mapStore := (MapStore.shadowBank_eq s.mapStore).symm
  have conflict_iff (c : Channel) : Bank.inConflict (MapStore.shadowBank s.mapStore) c = true ↔ conflict c := by
    rw [← hshadow]; exact Bank.inConflict_iff shadow c
  have mem_iff (c : Channel) (x : Slot) : x ∈ Bank.dropSlots (MapStore.shadowBank s.mapStore) c ↔ drops c x := by
    rw [← hshadow]; exact Bank.mem_dropSlots shadow c x
  refine ⟨fun params hne hp => exec_refuses rfl h hp (by decide) fun _ => answerCheckMap_of_params hne s,
    fun t ht => ?pending, fun hs hfree => ?free, fun hsound hs => ?checked, fun c x y hs hlow hxy hx hy hnext => ?conflict⟩
  case pending =>
    refine exec_refuses (params := []) rfl h (Nat.zero_le _) (by decide) fun _ => ?_
    change answerCheckMap [] s = _
    simp only [answerCheckMap, ht, List.isEmpty_nil, if_true]
  case free =>
    refine exec_answers (params := []) rfl h (Nat.zero_le _) (by decide) fun _ => answerCheckMap_free hs ?_
    exact (Bank.conflictFree_iff _).2 fun c => Bool.eq_false_iff.2 (mt (conflict_iff c).1 (hfree c))
  case checked =>
    refine exec_answers (params := []) rfl h (Nat.zero_le _) (by decide) fun _ =>
      (answerCheckMap_free (.inr hs) (hsound.2 (by rw [hs]; exact nofun))).trans ?_
    rw [← hs]
  case conflict =>
    have hfirst := Bank.firstConflict_eq_some _ c ((conflict_iff c).2 ⟨x, y, hxy, hx, hy⟩)
      fun e he => Bool.eq_false_iff.2 (mt (conflict_iff e).1 (hlow e he))
    have htwo := take_two_of_sorted (Bank.dropSlots_sorted (MapStore.shadowBank s.mapStore) c)
      ((mem_iff c x).2 hx) ((mem_iff c y).2 hy) hxy
      fun z hz => hnext z ((mem_iff c z).1 hz)
    refine exec_answers (params := []) rfl h (Nat.zero_le _) (by decide) fun _ => (answerCheckMap_conflict hs hfirst).trans ?_
    rw [Bank.conflictOctets, htwo]; rfl

/-- Settles O41: the form gives the target, and the shadow state, the ring time and the lead decide the answer in that order. -/
theorem switchIsScheduledAndCancelled : Obligations.SwitchIsScheduledAndCancelled := by
  intro s d form hi lo h target ahead schedule answer
  have ahead_iff : isAhead target d.superframe = true ↔ ahead := isAhead_iff _ _
  have hfit : [form, hi, lo].length ≤ 56 := by simp
  let request := fun destination => Delivery.request d destination .addressed .scheduleSwitch [form, hi, lo]
  have target_eq (hform : form.toNat ≤ 1) : switchTarget form hi lo d.superframe = some target :=
    switchTarget_of_le hi lo d.superframe hform
  refine ⟨fun hform => ?form, fun hform hs => ?editable, fun t hform hs => ?pending, fun hform hs ht => ?noTime,
    fun hform hs ht hnot => ?late, fun hform hs ht ha => ?accepted, fun params hl hp => ?length, fun t hs => ?cancelled,
    fun hs => ?cancelEditable, fun hs => ?cancelChecked, fun params hne hp => ?cancelLength⟩
  case form => exact exec_refuses rfl h hfit (by decide) fun dest => answerScheduleSwitch_of_form (r := request dest) rfl hform
  case editable =>
    exact exec_answers rfl h hfit (by decide) fun dest =>
      answerScheduleSwitch_of_editable (r := request dest) rfl (target_eq hform) hs
  case pending =>
    exact exec_answers rfl h hfit (by decide) fun dest =>
      answerScheduleSwitch_of_pending (r := request dest) rfl (target_eq hform) hs
  case noTime =>
    exact exec_refuses rfl h hfit (by decide) fun dest =>
      answerScheduleSwitch_without_time (r := request dest) rfl (target_eq hform) hs ht
  case late =>
    exact exec_answers rfl h hfit (by decide) fun dest =>
      answerScheduleSwitch_too_late (r := request dest) rfl (target_eq hform) hs ht (Bool.eq_false_iff.2 (mt ahead_iff.1 hnot))
  case accepted =>
    exact exec_answers rfl h hfit (by decide) fun dest =>
      answerScheduleSwitch_accepted (r := request dest) rfl (target_eq hform) hs ht (ahead_iff.2 ha)
  case length => exact exec_refuses rfl h hp (by decide) fun _ => answerScheduleSwitch_of_length hl
  case cancelled =>
    refine exec_answers (params := []) rfl h (Nat.zero_le _) (by decide) fun _ => ?_
    change answerCancelSwitch [] s = _
    simp only [answerCancelSwitch, hs, List.isEmpty_nil, if_true]
  case cancelEditable =>
    refine exec_answers (params := []) rfl h (Nat.zero_le _) (by decide) fun _ => ?_
    change answerCancelSwitch [] s = _
    simp only [answerCancelSwitch, hs, List.isEmpty_nil, if_true, ShadowState.code]
  case cancelChecked =>
    refine exec_answers (params := []) rfl h (Nat.zero_le _) (by decide) fun _ => ?_
    change answerCancelSwitch [] s = _
    simp only [answerCancelSwitch, hs, List.isEmpty_nil, if_true, ShadowState.code]
  case cancelLength => exact exec_refuses rfl h hp (by decide) fun _ => answerCancelSwitch_of_params hne s

end Sys2Proof.Proofs

/-! SUPPORT. Map entries as octets (spec/12 12.4), the shadow bank written and a bank read (R39 to R41), and the settlement of
O38. -/

namespace Sys2Proof.Machine

set_option Elab.async false

/-! ### Map entries (spec/12 12.4) -/

theorem actionOf_channel (code : Octet) (c : Channel) :
    actionOf code (octetOf c.val) = match code.toNat with
      | 1 => some (.tap c) | 2 => some (.terminate c) | 3 => some (.insert c) | _ => none := by
  have hc : (octetOf c.val).toNat = c.val := octetOf_toNat (by omega)
  have hlt : (octetOf c.val).toNat < 32 := by omega
  have heq : (⟨(octetOf c.val).toNat, hlt⟩ : Channel) = c := Fin.ext hc
  rw [actionOf, dif_pos hlt, heq] <;> rfl

theorem entryOf_octets (e : Entry) (o0 o1 : Octet) (h : Entry.octets e = [o0, o1]) : entryOf o0 o1 = some e := by
  obtain ⟨a, u⟩ := e
  simp only [Entry.octets, List.cons.injEq, and_true] at h
  obtain ⟨rfl, ho1⟩ := h
  have hcode : (((Action.code a <<< 4) ||| Substitution.code u) >>> 4 : Octet) = Action.code a := by
    cases a <;> cases u <;> simp only [Action.code, Substitution.code] <;> decide
  have hsub : substitutionOf ((((Action.code a <<< 4) ||| Substitution.code u) : Octet) &&& 0x0F#8) = some u := by
    cases a <;> cases u <;> simp only [Action.code, Substitution.code] <;> decide
  have haction : actionOf (Action.code a) o1 = some a := by
    rw [← ho1]
    cases a with
    | pass => rfl
    | mute => rfl
    | tap c => exact actionOf_channel _ c
    | terminate c => exact actionOf_channel _ c
    | insert c => exact actionOf_channel _ c
  simp only [entryOf, hcode, hsub, haction]

theorem entriesOf_octets (es : List Entry) : entriesOf (es.flatMap Entry.octets) = some es := by
  induction es with
  | nil => rfl
  | cons e es ih =>
    have he : entryOf _ _ = some e := entryOf_octets e _ _ rfl
    simp only [List.flatMap_cons, Entry.octets, List.cons_append, List.nil_append] at ih ⊢
    simp only [entriesOf, he, ih]

/-- One entry that is refused refuses all (R39). -/
theorem entriesOf_bad (front : List Entry) (o0 o1 : Octet) (back : List Octet) (h : entryOf o0 o1 = none) :
    entriesOf (front.flatMap Entry.octets ++ o0 :: o1 :: back) = none := by
  induction front with
  | nil => simp only [List.flatMap_nil, List.nil_append, entriesOf, h]
  | cons e es ih =>
    simp only [List.flatMap_cons, Entry.octets, List.cons_append, List.nil_append] at ih ⊢
    simp only [entriesOf, ih]
    split
    · contradiction
    · rfl

theorem substitutionOf_large {o : Octet} (h : 3 ≤ o.toNat) : substitutionOf o = none := by
  unfold substitutionOf
  split <;> first | omega | rfl

theorem actionOf_large {code : Octet} (channel : Octet) (h : 5 ≤ code.toNat) : actionOf code channel = none := by
  unfold actionOf
  split
  · split <;> first | omega | rfl
  · split
    · split <;> first | omega | rfl
    · rfl

/-- A channel octet that is no channel and not FFh (R39). -/
theorem actionOf_noChannel (code : Octet) {channel : Octet} (h : 0x20 ≤ channel.toNat) (h' : channel.toNat ≤ 0xFE) :
    actionOf code channel = none := by
  unfold actionOf
  rw [dif_neg (by omega), if_neg]
  rintro rfl
  exact absurd h' (by decide)

/-- An action that needs a channel and has none (R39). -/
theorem actionOf_lacking {code : Octet} (h : 1 ≤ code.toNat) (h' : code.toNat ≤ 3) : actionOf code 0xFF#8 = none := by
  unfold actionOf
  rw [dif_neg (by decide), if_pos rfl]
  split <;> first | omega | rfl

/-- A channel for an action that has no place for it (R39). -/
theorem actionOf_needless {code channel : Octet} (hc : channel.toNat < 0x20) (h : code.toNat = 0 ∨ code.toNat = 4) :
    actionOf code channel = none := by
  unfold actionOf
  rw [dif_pos hc]
  split <;> first | omega | rfl

theorem entryOf_refused {o0 o1 : Octet}
    (h : 5 ≤ (o0 >>> 4).toNat ∨ 3 ≤ (o0 &&& 0x0F#8).toNat ∨ (0x20 ≤ o1.toNat ∧ o1.toNat ≤ 0xFE) ∨
      (o1 = 0xFF#8 ∧ 1 ≤ (o0 >>> 4).toNat ∧ (o0 >>> 4).toNat ≤ 3) ∨
      (o1.toNat < 0x20 ∧ ((o0 >>> 4).toNat = 0 ∨ (o0 >>> 4).toNat = 4))) : entryOf o0 o1 = none := by
  have of_action (ha : actionOf (o0 >>> 4) o1 = none) : entryOf o0 o1 = none := by simp only [entryOf, ha]
  rcases h with h | h | ⟨hlow, hhigh⟩ | ⟨rfl, hlow, hhigh⟩ | ⟨hc, h⟩
  · exact of_action (actionOf_large _ h)
  · simp only [entryOf, substitutionOf_large h]
    cases actionOf (o0 >>> 4) o1 <;> rfl
  · exact of_action (actionOf_noChannel _ hlow hhigh)
  · exact of_action (actionOf_lacking hlow hhigh)
  · exact of_action (actionOf_needless hc h)

/-! ### A range of a bank (R40, R41) -/

theorem vector_toList_eq_map {α : Type} {n : Nat} (v : Vector α n) : v.toList = (List.finRange n).map fun i => v[i] :=
  List.ext_getElem (by simp) fun i h _ => by simp

/-- The numbers of a range, in ascending order. -/
theorem finRange_filter_range (n first count : Nat) :
    (List.finRange n).filter (fun x => decide (first ≤ x.val ∧ x.val < first + count)) =
      ((List.finRange n).drop first).take count := by
  have hsplit : List.finRange n = (List.finRange n).take first ++
      (((List.finRange n).drop first).take count ++ ((List.finRange n).drop first).drop count) := by
    rw [List.take_append_drop, List.take_append_drop]
  conv => lhs; rw [hsplit, List.filter_append, List.filter_append]
  have hfront : ((List.finRange n).take first).filter (fun x => decide (first ≤ x.val ∧ x.val < first + count)) = [] := by
    rw [List.filter_eq_nil_iff]
    intro x hx
    obtain ⟨i, hi, rfl⟩ := List.mem_take_iff_getElem.1 hx
    simp only [List.getElem_finRange, decide_eq_true_eq, Fin.val_cast]
    omega
  have hmiddle : (((List.finRange n).drop first).take count).filter
      (fun x => decide (first ≤ x.val ∧ x.val < first + count)) = ((List.finRange n).drop first).take count := by
    rw [List.filter_eq_self]
    intro x hx
    obtain ⟨i, hi, rfl⟩ := List.mem_take_iff_getElem.1 hx
    simp only [List.getElem_drop, List.getElem_finRange, decide_eq_true_eq, Fin.val_cast]
    omega
  have hback : (((List.finRange n).drop first).drop count).filter
      (fun x => decide (first ≤ x.val ∧ x.val < first + count)) = [] := by
    rw [List.filter_eq_nil_iff]
    intro x hx
    rw [List.drop_drop] at hx
    obtain ⟨i, hi, rfl⟩ := List.mem_drop_iff_getElem.1 hx
    simp only [List.getElem_finRange, decide_eq_true_eq, Fin.val_cast]
    omega
  rw [hfront, hmiddle, hback, List.nil_append, List.append_nil]

theorem Bank.readOctets_eq (b : Bank) (first count : Nat) :
    Bank.readOctets b first count =
      ((List.finRange 48).filter fun x : Slot => decide (first ≤ x.val ∧ x.val < first + count)).flatMap
        fun x => Entry.octets b[x] := by
  rw [Bank.readOctets, finRange_filter_range, vector_toList_eq_map, ← List.map_drop, ← List.map_take, List.flatMap_map]

theorem Bank.written_get (b : Bank) (first : Nat) (es : List Entry) (x : Slot) :
    (Bank.written b first es)[x] = if x.val < first then b[x] else es.getD (x.val - first) b[x] := by
  simp [Bank.written]

theorem Bank.written_inside (b : Bank) {first : Nat} {es : List Entry} {x : Slot} (h : first ≤ x.val)
    (h' : x.val < first + es.length) : es[x.val - first]? = some (Bank.written b first es)[x] := by
  have hlt : x.val - first < es.length := by omega
  rw [Bank.written_get, if_neg (by omega), List.getD_eq_getElem _ _ hlt, List.getElem?_eq_getElem hlt]

theorem Bank.written_outside (b : Bank) {first : Nat} {es : List Entry} {x : Slot}
    (h : x.val < first ∨ first + es.length ≤ x.val) : (Bank.written b first es)[x] = b[x] := by
  rw [Bank.written_get]
  split
  · rfl
  · rw [List.getD_eq_default]; omega

/-- The range that was written holds the entries that were sent. -/
theorem Bank.readOctets_written (b : Bank) {first : Nat} {es : List Entry} (h : first + es.length ≤ 48) :
    Bank.readOctets (Bank.written b first es) first es.length = es.flatMap Entry.octets := by
  have hrange : (((Bank.written b first es).toList).drop first).take es.length = es := by
    refine List.ext_getElem (by simp; omega) fun i hi _ => ?_
    have hlt : i < es.length := by simpa using (List.length_take_le _ _).trans_lt' hi
    have hinside := Bank.written_inside b (first := first) (es := es) (x := ⟨first + i, by omega⟩) (by simp) (by simpa)
    simp only [Nat.add_sub_cancel_left, List.getElem?_eq_getElem hlt, Option.some.injEq] at hinside
    rw [hinside]
    simp
  rw [Bank.readOctets, hrange]

/-! ### WRITE_MAP and READ_MAP (R39 to R41) -/

section
variable {s : State} {first count : Octet}

theorem answerWriteMap_of_length {rest : List Octet} (h : rest.length ≠ 2 * count.toNat) :
    answerWriteMap (first :: count :: rest) s = Answer.refuse s .badLength := if_neg h

theorem answerWriteMap_of_short {params : List Octet} (h : params.length < 2) :
    answerWriteMap params s = Answer.refuse s .badLength := by
  match params, h with
  | [], _ => rfl
  | [_], _ => rfl

theorem answerWriteMap_of_range {rest : List Octet} (hl : rest.length = 2 * count.toNat)
    (h : ¬(1 ≤ count.toNat ∧ count.toNat ≤ 24 ∧ first.toNat + count.toNat ≤ 48)) :
    answerWriteMap (first :: count :: rest) s = Answer.refuse s .badParameter := (if_pos hl).trans (if_neg h)

theorem answerWriteMap_of_entries {rest : List Octet} (hl : rest.length = 2 * count.toNat)
    (h : 1 ≤ count.toNat ∧ count.toNat ≤ 24 ∧ first.toNat + count.toNat ≤ 48) (he : entriesOf rest = none) :
    answerWriteMap (first :: count :: rest) s = Answer.refuse s .badParameter := by
  simp only [answerWriteMap, if_pos hl, if_pos h, he]

/-- Well-formed entries within the bank are written unless a switch is pending (R40). -/
theorem answerWriteMap_of_some {rest : List Octet} {es : List Entry} (hl : rest.length = 2 * count.toNat)
    (h : 1 ≤ count.toNat ∧ count.toNat ≤ 24 ∧ first.toNat + count.toNat ≤ 48) (he : entriesOf rest = some es) :
    answerWriteMap (first :: count :: rest) s = match s.mapStore.shadow with
      | .pending _ => Answer.refuse s .wrongState
      | .editable | .checked => ⟨.ok, [], State.writeShadow s first.toNat es⟩ := by
  simp only [answerWriteMap, if_pos hl, if_pos h, he] <;> rfl

theorem answerReadMap_of_length {params : List Octet} (h : params.length ≠ 3) :
    answerReadMap params s = Answer.refuse s .badLength := by
  unfold answerReadMap
  split
  · exact absurd rfl h
  · rfl

theorem MapStore.roleOf_large (m : MapStore) {role : Octet} (h : 2 ≤ role.toNat) : MapStore.roleOf m role = none := by
  unfold MapStore.roleOf
  split <;> first | omega | rfl

theorem answerReadMap_of_role {role : Octet} (h : 2 ≤ role.toNat) :
    answerReadMap [role, first, count] s = Answer.refuse s .badParameter := by
  simp only [answerReadMap, MapStore.roleOf_large _ h]

theorem answerReadMap_of_range {role : Octet}
    (h : ¬(1 ≤ count.toNat ∧ count.toNat ≤ 24 ∧ first.toNat + count.toNat ≤ 48)) :
    answerReadMap [role, first, count] s = Answer.refuse s .badParameter := by
  simp only [answerReadMap]
  split
  · exact if_neg h
  · rfl

theorem answerReadMap_of_letter {role : Octet} {letter : BankName} (hr : MapStore.roleOf s.mapStore role = some letter)
    (h : 1 ≤ count.toNat ∧ count.toNat ≤ 24 ∧ first.toNat + count.toNat ≤ 48) :
    answerReadMap [role, first, count] s =
      ⟨.ok, [BankName.code letter, ShadowState.code s.mapStore.shadow, first, count] ++
        Bank.readOctets (MapStore.bank s.mapStore letter) first.toNat count.toNat, s⟩ := by
  simp only [answerReadMap, hr, if_pos h]

end

end Sys2Proof.Machine

namespace Sys2Proof.Proofs

open Sys2Proof Sys2Proof.Machine

set_option Elab.async false

/-- Settles O38: the statement's octets are those of `Entry.octets`, which `entriesOf` reads back, and a write puts the entries
where `Bank.written` says, which a read finds again. -/
theorem mapIsWrittenAndRead : Obligations.MapIsWrittenAndRead := by
  intro s d first count h inBank shadowOf spelled shown write answer
  have hspelled : spelled = Entry.octets := by
    funext e
    obtain ⟨a, u⟩ := e
    cases a <;> cases u <;> rfl
  have hshadow (m : MapStore) : shadowOf m = MapStore.shadowBank m := (MapStore.shadowBank_eq m).symm
  have hshown (b : Bank) : shown b = Bank.readOctets b first.toNat count.toNat := by
    rw [Bank.readOctets_eq b, ← hspelled]
  have fits {octets : List Octet} (hl : octets.length ≤ 54) : (first :: count :: octets).length ≤ 56 := by
    simp only [List.length_cons]; omega
  rw [hspelled]
  refine ⟨fun entries hin hlen => ?written, fun octets hlen hfit hout => ?range, fun front back o0 o1 hlen hin => ?entry,
    fun hin => ?shadowRead, fun hin => ?activeRead, fun role hrole => ?role, fun params hl hp => ?readLength,
    fun params hl => ?short, fun more hfit hl => ?writeLength⟩
  case written =>
    have hoctets : (entries.flatMap Entry.octets).length = 2 * count.toNat := by rw [entryOctets_length, hlen]
    have hfit : (entries.flatMap Entry.octets).length ≤ 54 := by have := hin.2.1; omega
    have hanswer := answerWriteMap_of_some (s := s) (first := first) hoctets hin (entriesOf_octets entries)
    refine ⟨fun hnot => ?_, fun ⟨t, ht⟩ => exec_refuses rfl h (fits hfit) (by decide) fun _ => hanswer.trans (by rw [ht])⟩
    have hbank := MapStore.setShadow_shadowBank s.mapStore
      (Bank.written (MapStore.shadowBank s.mapStore) first.toNat entries) .editable
    have hwritten := Bank.readOctets_written (MapStore.shadowBank s.mapStore) (first := first.toNat) (es := entries)
      (by rw [hlen]; exact hin.2.2)
    refine ⟨MapStore.setShadow s.mapStore (Bank.written (MapStore.shadowBank s.mapStore) first.toNat entries) .editable,
      exec_answers rfl h (fits hfit) (by decide) fun _ => hanswer.trans ?_, MapStore.setShadow_active .., MapStore.setShadow_shadow ..,
      MapStore.setShadow_activeBank .., fun x hlow hhigh => ?_, fun x hx => ?_, ?_⟩
    · cases hs : s.mapStore.shadow with
      | pending t => exact absurd hs (hnot t)
      | editable => rfl
      | checked => rfl
    · rw [hshadow, hbank]; exact Bank.written_inside _ hlow (by rw [hlen]; exact hhigh)
    · rw [hshadow, hshadow, hbank]; exact Bank.written_outside _ (by rw [hlen]; exact hx)
    · rw [hshown, hshadow, hbank, ← hwritten, hlen]
  case range => exact exec_refuses rfl h (fits hfit) (by decide) fun _ => answerWriteMap_of_range hlen hout
  case entry =>
    intro code hbad
    have hjoin : front.flatMap Entry.octets ++ [o0, o1] ++ back.flatMap Entry.octets =
        front.flatMap Entry.octets ++ o0 :: o1 :: back.flatMap Entry.octets := by simp
    have hoctets : (front.flatMap Entry.octets ++ o0 :: o1 :: back.flatMap Entry.octets).length = 2 * count.toNat := by
      rw [List.length_append, List.length_cons, List.length_cons, entryOctets_length, entryOctets_length]; omega
    rw [hjoin]
    exact exec_refuses rfl h (fits (by have := hin.2.1; omega)) (by decide) fun _ =>
      answerWriteMap_of_entries hoctets hin (entriesOf_bad front o0 o1 _ (entryOf_refused hbad))
  case shadowRead =>
    have hletter : BankName.code (MapStore.shadowName s.mapStore) = match s.mapStore.active with | .a => 0x01#8 | .b => 0x00#8 := by
      unfold MapStore.shadowName; cases s.mapStore.active <;> rfl
    refine exec_answers rfl h (by decide : (3 : Nat) ≤ 56) (by decide) fun _ =>
      (answerReadMap_of_letter (s := s) (role := 0x01#8) (letter := MapStore.shadowName s.mapStore) rfl hin).trans ?_
    rw [hshown, hshadow, hletter]; rfl
  case activeRead =>
    refine exec_answers rfl h (by decide : (3 : Nat) ≤ 56) (by decide) fun _ =>
      (answerReadMap_of_letter (s := s) (role := 0x00#8) (letter := s.mapStore.active) rfl hin).trans ?_
    rw [hshown]; rfl
  case role =>
    refine exec_refuses rfl h (by decide : (3 : Nat) ≤ 56) (by decide) fun _ => ?_
    exact hrole.elim answerReadMap_of_role answerReadMap_of_range
  case readLength => exact exec_refuses rfl h hp (by decide) fun _ => answerReadMap_of_length hl
  case short => exact exec_refuses rfl h (by omega) (by decide) fun _ => answerWriteMap_of_short hl
  case writeLength => exact exec_refuses rfl h (fits hfit) (by decide) fun _ => answerWriteMap_of_length hl

end Sys2Proof.Proofs

/-! SUPPORT. Watch setups and event setups as octets (spec/12 12.5, 12.6), the watch and class requests (R103 to R105, R168 to
R171), and the settlement of O42 and O43. -/

namespace Sys2Proof.Machine

set_option Elab.async false

/-! ### Watch setups (spec/12 12.5) -/

theorem watchSetupOf_octets (u : WatchSetup) (h1 : 1 ≤ u.limit) (h2 : u.limit ≤ 4095) (h3 : 1 ≤ u.debounce)
    (h4 : u.debounce ≤ 15) : watchSetupOf (WatchSetup.octets u) = some u := by
  obtain ⟨en, slot, mode, sense, value, mask, limit, debounce, cons⟩ := u
  have hslot : (octetOf slot.val).toNat = slot.val := octetOf_toNat (by omega)
  have hlt : (octetOf slot.val).toNat < 48 := by omega
  have heq : (⟨(octetOf slot.val).toNat, hlt⟩ : Slot) = slot := Fin.ext hslot
  have hen : (if en then 0x80#8 else 0x00#8 : Octet).getLsbD 7 = en := by cases en <;> decide
  have hmode : watchModeOf (((WatchMode.code mode <<< 4) ||| Sense.code sense) >>> 4) = some mode := by
    cases mode <;> cases sense <;> decide
  have hsense : senseOf (((WatchMode.code mode <<< 4) ||| Sense.code sense) &&& 0x0F#8) = some sense := by
    cases mode <;> cases sense <;> decide
  have hcons : consequenceOf (Consequence.code cons) = some cons := by cases cons <;> decide
  have hlimit : ((BitVec.ofNat 4 debounce ++ BitVec.ofNat 12 limit).extractLsb' 0 12).toNat = limit := by
    rw [BitVec.extractLsb'_append_eq_right, BitVec.toNat_ofNat, Nat.mod_eq_of_lt (Nat.lt_of_le_of_lt h2 (by decide))]
  have hdebounce : ((BitVec.ofNat 4 debounce ++ BitVec.ofNat 12 limit).extractLsb' 12 4).toNat = debounce := by
    rw [BitVec.extractLsb'_append_eq_left, BitVec.toNat_ofNat, Nat.mod_eq_of_lt (Nat.lt_of_le_of_lt h4 (by decide))]
  simp only [WatchSetup.octets, octets24, octets16, List.cons_append, List.nil_append, watchSetupOf, dif_pos hlt, hmode, hsense,
    hcons, word16_octets16, word24_octets24, hlimit, hdebounce, hen, heq]
  exact if_pos ⟨h1, h3⟩

/-- A code above those that a two-valued field has (R103). -/
theorem watchModeOf_large {o : Octet} (h : 2 ≤ o.toNat) : watchModeOf o = none := by
  unfold watchModeOf
  split <;> first | omega | rfl

theorem senseOf_large {o : Octet} (h : 2 ≤ o.toNat) : senseOf o = none := by
  unfold senseOf
  split <;> first | omega | rfl

theorem consequenceOf_large {o : Octet} (h : 2 ≤ o.toNat) : consequenceOf o = none := by
  unfold consequenceOf
  split <;> first | omega | rfl

theorem debounce_zero {d1 : Octet} (d0 : Octet) (h : d1 >>> 4 = 0#8) : ((word16 d1 d0).extractLsb' 12 4).toNat = 0 := by
  have hzero : (word16 d1 d0).extractLsb' 12 4 = 0#4 := by
    rw [word16, BitVec.extractLsb'_append_eq_of_le (by decide)]
    refine BitVec.eq_of_getLsbD_eq fun i hi => ?_
    have hbit := congrArg (BitVec.getLsbD · i) h
    simpa [hi, BitVec.getLsbD_ushiftRight] using hbit
  rw [hzero]; rfl

theorem limit_zero {d1 d0 : Octet} (h : (d1 ++ d0 : BitVec 16) &&& 0x0FFF#16 = 0#16) :
    ((word16 d1 d0).extractLsb' 0 12).toNat = 0 := by
  have hzero : (word16 d1 d0).extractLsb' 0 12 = 0#12 := by
    refine BitVec.eq_of_getLsbD_eq fun i hi => ?_
    have hbit := congrArg (BitVec.getLsbD · i) h
    have hmask : (0x0FFF#16).getLsbD i = true := by interval_cases i <;> decide
    rw [BitVec.getLsbD_and, hmask, Bool.and_true] at hbit
    rw [BitVec.getLsbD_extractLsb', decide_eq_true hi, Bool.true_and, Nat.zero_add, word16]
    simpa using hbit
  rw [hzero]; rfl

theorem watchSetupOf_refused {en sl ms v2 v1 v0 m2 m1 m0 d1 d0 co : Octet}
    (h : 48 ≤ sl.toNat ∨ 2 ≤ (ms >>> 4).toNat ∨ 2 ≤ (ms &&& 0x0F#8).toNat ∨ 2 ≤ co.toNat ∨ (d1 >>> 4) = 0#8 ∨
      (d1 ++ d0 : BitVec 16) &&& 0x0FFF#16 = 0#16) :
    watchSetupOf [en, sl, ms, v2, v1, v0, m2, m1, m0, d1, d0, co] = none := by
  by_cases hsl : sl.toNat < 48
  · simp only [watchSetupOf, dif_pos hsl]
    rcases h with h | h | h | h | h | h
    · omega
    · simp only [watchModeOf_large h]
    · simp only [senseOf_large h]
      cases watchModeOf (ms >>> 4) <;> rfl
    · simp only [consequenceOf_large h]
      cases watchModeOf (ms >>> 4) <;> [rfl; (cases senseOf (ms &&& 0x0F#8) <;> rfl)]
    · simp only [debounce_zero d0 h]
      split
      · exact if_neg fun hone => absurd hone.2 (by decide)
      · rfl
    · simp only [limit_zero h]
      split
      · exact if_neg fun hone => absurd hone.1 (by decide)
      · rfl
  · simp only [watchSetupOf, dif_neg hsl]

/-- The octets of a watch just written (spec/12 12.5). -/
theorem Watch.octets_restarted (u : WatchSetup) : Watch.octets (Watch.restarted u) =
    WatchSetup.octets u ++ [0#8] ++ octets16 (BitVec.ofNat 16 u.limit) ++ List.replicate 8 0#8 := by
  have hrest : ([octetOfBool false ||| (octetOfBool false <<< 1)] ++ octets24 0#24 ++ octets24 0#24 ++ [octetOf 0] : List Octet) =
      List.replicate 8 0#8 := by decide
  rw [← hrest]
  simp only [Watch.octets, Watch.restarted, WatchStatus.code, Option.isSome_none, Option.getD_none, List.append_assoc]

/-! ### WRITE_WATCH and READ_WATCH (R103 to R105) -/

section
variable {s : State} {index : Octet} {setup params : List Octet}

theorem answerWriteWatch_of_length (h : params.length ≠ 13) : answerWriteWatch params s = Answer.refuse s .badLength := if_neg h

theorem answerWriteWatch_of_refused (hl : setup.length = 12) (h : ¬index.toNat < 16 ∨ watchSetupOf setup = none) :
    answerWriteWatch (index :: setup) s = Answer.refuse s .badParameter := by
  have hlen : (index :: setup).length = 13 := by rw [List.length_cons, hl]
  rw [answerWriteWatch, if_pos hlen]
  by_cases hi : index.toNat < 16
  · simp only [dif_pos hi, h.resolve_left (not_not.2 hi)]
  · exact dif_neg hi

theorem answerWriteWatch_of_setup {u : WatchSetup} (hl : setup.length = 12) (h : index.toNat < 16)
    (hu : watchSetupOf setup = some u) :
    answerWriteWatch (index :: setup) s = ⟨.ok, [], State.writeWatch s ⟨index.toNat, h⟩ u⟩ := by
  have hlen : (index :: setup).length = 13 := by rw [List.length_cons, hl]
  simp only [answerWriteWatch, if_pos hlen, dif_pos h, hu]

theorem answerReadWatch_of_length (h : params.length ≠ 1) : answerReadWatch params s = Answer.refuse s .badLength := by
  unfold answerReadWatch
  split
  · exact absurd rfl h
  · rfl

end

/-! ### Event setups (spec/12 12.6) -/

theorem octetOfFlags_flagsOf (o : Octet) : octetOfFlags (flagsOf o) = o := by
  refine BitVec.eq_of_getLsbD_eq fun i hi => ?_
  exact (octetOfFlags_getLsbD (flagsOf o) ⟨i, hi⟩).trans (by rw [flagsOf, Fin.getElem_fin, Vector.getElem_ofFn])

theorem kindSettingOf_octet (k : KindSetting) : kindSettingOf (KindSetting.octet k) = k := by
  obtain ⟨b, c⟩ := k
  cases b <;> revert c <;> decide

/-- The places of 24 octets that spell a whole event setup (R168). -/
theorem setup_getD (kinds : Vector KindSetting 21) (masks mode acks : Octet) :
    let os := kinds.toList.map KindSetting.octet ++ [masks, mode, acks]
    os.length = 24 ∧ (∀ i : Fin 21, os.getD i.val 0#8 = KindSetting.octet kinds[i]) ∧ os.getD 21 0#8 = masks ∧
      os.getD 22 0#8 = mode ∧ os.getD 23 0#8 = acks := by
  have hl : (kinds.toList.map KindSetting.octet).length = 21 := by simp
  have hbehind (i : Nat) : (kinds.toList.map KindSetting.octet ++ [masks, mode, acks]).getD (21 + i) 0#8 =
      [masks, mode, acks].getD i 0#8 := by
    rw [List.getD_append_right _ _ _ _ (by omega), hl, Nat.add_sub_cancel_left]
  refine ⟨by simp, fun i => ?_, hbehind 0, hbehind 1, hbehind 2⟩
  rw [List.getD_append _ _ _ _ (by rw [hl]; exact i.isLt)]
  simp

/-- The event setup that 24 octets spell, as it stands in the Event Unit (R168, R169). -/
theorem EventUnit.withSetup_spelled (ev : EventUnit) (kinds : Vector KindSetting 21) (masks mode acks : Octet)
    (om : OrderMode) :
    EventUnit.withSetup ev (kinds.toList.map KindSetting.octet ++ [masks, mode, acks]) om = { ev with
      kinds := kinds, masked := flagsOf masks, autoAck := flagsOf acks, orderMode := om
      order := if om = .rotate ∧ ev.orderMode = .rotate then ev.order else fixedOrder } := by
  obtain ⟨-, hkinds, hmasks, -, hacks⟩ := setup_getD kinds masks mode acks
  have hvector : (Vector.ofFn fun i : Fin 21 =>
      kindSettingOf ((kinds.toList.map KindSetting.octet ++ [masks, mode, acks]).getD i.val 0#8)) = kinds := by
    refine Vector.ext fun i hi => ?_
    rw [Vector.getElem_ofFn, hkinds ⟨i, hi⟩, kindSettingOf_octet]; rfl
  unfold EventUnit.withSetup
  rw [hvector, hmasks, hacks]
  cases om <;> cases hm : ev.orderMode <;> rfl

theorem orderModeOf_of_le {o : Octet} (h : o.toNat ≤ 1) :
    orderModeOf o = some (if o = 0#8 then .fixed else .rotate) ∧ OrderMode.code (if o = 0#8 then .fixed else .rotate) = o ∧
      ((if o = 0#8 then OrderMode.fixed else .rotate) = .rotate ↔ o = 1#8) := by
  obtain rfl | rfl : o = 0#8 ∨ o = 1#8 := by
    rcases Nat.le_one_iff_eq_zero_or_eq_one.1 h with h | h
    · exact .inl (BitVec.eq_of_toNat_eq h)
    · exact .inr (BitVec.eq_of_toNat_eq h)
  · decide
  · decide

theorem orderModeOf_large {o : Octet} (h : 2 ≤ o.toNat) : orderModeOf o = none := by
  unfold orderModeOf
  split <;> first | omega | rfl

/-! ### The class requests (R168 to R171) -/

section
variable {s : State} {params : List Octet}

theorem answerWriteEventSetup_of_length (h : params.length ≠ 24) :
    answerWriteEventSetup params s = Answer.refuse s .badLength := if_neg h

theorem answerWriteEventSetup_of_mode (hl : params.length = 24) (h : 2 ≤ (params.getD 22 0#8).toNat) :
    answerWriteEventSetup params s = Answer.refuse s .badParameter := by
  simp only [answerWriteEventSetup, if_pos hl, orderModeOf_large h]

theorem answerReadClass_of_length (h : params.length ≠ 1) : answerReadClass params s = Answer.refuse s .badLength := by
  unfold answerReadClass
  split
  · exact absurd rfl h
  · rfl

theorem answerDiscardClass_of_length (h : params.length ≠ 2) : answerDiscardClass params s = Answer.refuse s .badLength := by
  unfold answerDiscardClass
  split
  · exact absurd rfl h
  · rfl

theorem answerReadClass_of_class (s : State) (c : ClassId) :
    answerReadClass [octetOf c.val] s = ⟨.ok, EventUnit.classOctets s.events c, State.testEvents s⟩ := by
  have hc : (octetOf c.val).toNat = c.val := octetOf_toNat (by omega)
  have hlt : (octetOf c.val).toNat < 8 := by omega
  have heq : (⟨(octetOf c.val).toNat, hlt⟩ : ClassId) = c := Fin.ext hc
  simp only [answerReadClass, dif_pos hlt, heq]

theorem answerDiscardClass_of_class (s : State) (c : ClassId) (n : Octet) :
    answerDiscardClass [octetOf c.val, n] s = ⟨.ok, [octetOf (EventUnit.discarded s.events c n.toNat).length],
      State.testEvents { s with events := EventUnit.discard s.events c n.toNat }⟩ := by
  have hc : (octetOf c.val).toNat = c.val := octetOf_toNat (by omega)
  have hlt : (octetOf c.val).toNat < 8 := by omega
  have heq : (⟨(octetOf c.val).toNat, hlt⟩ : ClassId) = c := Fin.ext hc
  simp only [answerDiscardClass, dif_pos hlt, heq]

end

theorem EventUnit.discarded_length (ev : EventUnit) (c : ClassId) (n : Nat) :
    (EventUnit.discarded ev c n).length = min n (ev.queues[c].length - EventUnit.carriedOf ev c) := by
  rw [EventUnit.discarded, List.length_take, List.length_drop]

/-- What stays behind the carried records, with the number of those that go (R171). -/
theorem EventUnit.discard_drop (ev : EventUnit) (c : ClassId) (n : Nat) :
    (ev.queues[c].drop (EventUnit.carriedOf ev c)).drop n =
      ev.queues[c].drop (EventUnit.carriedOf ev c + min n (ev.queues[c].length - EventUnit.carriedOf ev c)) := by
  rw [List.drop_drop]
  rcases Nat.le_total n (ev.queues[c].length - EventUnit.carriedOf ev c) with h | h
  · rw [Nat.min_eq_left h]
  · rw [Nat.min_eq_right h, List.drop_eq_nil_of_le (by omega), List.drop_eq_nil_of_le (by omega)]

end Sys2Proof.Machine

namespace Sys2Proof.Proofs

open Sys2Proof Sys2Proof.Machine

set_option Elab.async false

/-- Settles O42: the octets of a setup are read back as that setup, each field out of its values has no reading, and a READ_WATCH
shows the watch that `Watch.octets` spells. -/
theorem watchIsWrittenAndRead : Obligations.WatchIsWrittenAndRead := by
  intro s d index u h spelled setup refused
  have hspelled (u : WatchSetup) : spelled u = WatchSetup.octets u := by
    obtain ⟨en, slot, mode, sense, value, mask, limit, debounce, cons⟩ := u
    cases mode <;> cases sense <;> cases cons <;> rfl
  have hsetup : setup = WatchSetup.octets u := hspelled u
  have hlen : setup.length = 12 := by rw [hsetup]; exact WatchSetup.octets_length u
  have hfit : (index :: setup).length ≤ 56 := by rw [List.length_cons, hlen]; decide
  have hread (t : State) (ht : State.AddressedReady t d) (hi : index.toNat < 16) : exec (.readWatch d [index]) t =
      .next (State.answered t d .readWatch .ok (index :: Watch.octets t.watches[index.toNat]) false) :=
    exec_answers rfl ht (by decide : (1 : Nat) ≤ 56) (by decide) fun _ => dif_pos hi
  refine ⟨fun hi h1 h2 h3 h4 => ?written, fun hi => ?read, fun hi => ⟨?badIndex, ?badReadIndex⟩,
    fun en sl ms v2 v1 v0 m2 m1 m0 d1 d0 co hbad => ?badSetup, fun params hp => ⟨fun hl => ?writeLength, fun hl => ?readLength⟩⟩
  case written =>
    refine ⟨State.writeWatch s ⟨index.toNat, hi⟩ u, exec_answers rfl h hfit (by decide) fun _ =>
      answerWriteWatch_of_setup hlen hi (by rw [hsetup]; exact watchSetupOf_octets u h1 h2 h3 h4), rfl, ?_⟩
    have hwatch : (State.writeWatch s ⟨index.toNat, hi⟩ u).watches[index.toNat] = Watch.restarted u := by
      simp [State.writeWatch]
    refine (hread (State.writeWatch s ⟨index.toNat, hi⟩ u) h hi).trans ?_
    rw [hwatch, hsetup, Watch.octets_restarted]
    rfl
  case read =>
    intro w
    refine (hread s h hi).trans ?_
    have hflags : octetOfBool w.stable.isSome ||| (octetOfBool w.candidate.isSome <<< 1) =
        (if w.stable = none then 0x00#8 else 0x01#8) ||| (if w.candidate = none then 0x00#8 else 0x02#8) := by
      cases w.stable <;> cases w.candidate <;> rfl
    rw [hspelled, ← hflags]
    rfl
  case badIndex =>
    exact exec_refuses rfl h hfit (by decide) fun _ => answerWriteWatch_of_refused hlen (.inl (by omega))
  case badReadIndex =>
    exact exec_refuses rfl h (by decide : (1 : Nat) ≤ 56) (by decide) fun _ => dif_neg (by omega)
  case badSetup =>
    exact exec_refuses rfl h (by decide : (13 : Nat) ≤ 56) (by decide) fun _ =>
      answerWriteWatch_of_refused rfl (.inr (watchSetupOf_refused hbad))
  case writeLength => exact exec_refuses rfl h hp (by decide) fun _ => answerWriteWatch_of_length hl
  case readLength => exact exec_refuses rfl h hp (by decide) fun _ => answerReadWatch_of_length hl

/-- Settles O43: a setup's octets are read back as that setup, a class octet names its class, and DISCARD_CLASS takes the records
from behind the carried ones. -/
theorem classRequestsAreExecuted : Obligations.ClassRequestsAreExecuted := by
  intro s d h tested
  refine ⟨fun kinds masks mode acks hmode => ?setup, fun params hl hmode => ?mode, fun c => ⟨?readClass, fun n => ?discard⟩,
    fun k n hk => ⟨?badRead, ?badDiscard⟩,
    fun params hp => ⟨fun hl => ?setupLength, fun hl => ?readLength, fun hl => ?discardLength⟩⟩
  case setup =>
    intro kindOctets
    obtain ⟨hlen, -, -, hplace, -⟩ := setup_getD kinds masks mode acks
    obtain ⟨horder, hcode, hrotate⟩ := orderModeOf_of_le hmode
    have hspelled := EventUnit.withSetup_spelled s.events kinds masks mode acks (if mode = 0#8 then .fixed else .rotate)
    have hoctets : kindOctets ++ [masks, mode, acks] = kinds.toList.map KindSetting.octet ++ [masks, mode, acks] := rfl
    rw [hoctets]
    refine exec_answers rfl h (by rw [hlen]; decide) (by decide) fun _ => ?_
    change answerWriteEventSetup (kinds.toList.map KindSetting.octet ++ [masks, mode, acks]) s = _
    simp only [answerWriteEventSetup, if_pos hlen, hplace, horder, hspelled, EventUnit.setupOctets, octetOfFlags_flagsOf, hcode,
      hrotate]
    rfl
  case mode => exact exec_refuses rfl h (by omega) (by decide) fun _ => answerWriteEventSetup_of_mode hl hmode
  case readClass =>
    refine exec_answers rfl h (by decide : (1 : Nat) ≤ 56) (by decide) fun _ => (answerReadClass_of_class s c).trans ?_
    have hlength : (s.events.queues[c].take 4).length = min 4 s.events.queues[c].length := List.length_take
    rw [EventUnit.classOctets, hlength]
    rfl
  case discard =>
    intro carried removed
    refine exec_answers rfl h (by decide : (2 : Nat) ≤ 56) (by decide) fun _ => (answerDiscardClass_of_class s c n).trans ?_
    have hcarried : carried = EventUnit.carriedOf s.events c := rfl
    rw [EventUnit.discard, EventUnit.discarded_length, EventUnit.discard_drop]
    rfl
  case badRead => exact exec_refuses rfl h (by decide : (1 : Nat) ≤ 56) (by decide) fun _ => dif_neg (by omega)
  case badDiscard => exact exec_refuses rfl h (by decide : (2 : Nat) ≤ 56) (by decide) fun _ => dif_neg (by omega)
  case setupLength => exact exec_refuses rfl h hp (by decide) fun _ => answerWriteEventSetup_of_length hl
  case readLength => exact exec_refuses rfl h hp (by decide) fun _ => answerReadClass_of_length hl
  case discardLength => exact exec_refuses rfl h hp (by decide) fun _ => answerDiscardClass_of_length hl

end Sys2Proof.Proofs

/-! SUPPORT. The arrival of a request (R133 to R136, R144): what it leaves of the queue, by the kind of its class, and the
settlement of O44 to O46. -/

namespace Sys2Proof.Machine

set_option Elab.async false

/-! ### Duplicates (R134) -/

theorem Engine.holdsDuplicate_addressed (e : Engine) {r : Request} (hr : r.cls = .addressed) :
    Engine.holdsDuplicate e r = true ↔ ∃ q ∈ e.requests, q.cls = .addressed ∧ q.packet.sequence = r.packet.sequence := by
  simp only [Engine.holdsDuplicate, List.any_eq_true, Bool.and_eq_true, decide_eq_true_eq, hr]
  refine exists_congr fun q => and_congr_right fun _ => and_congr_left fun _ => ?_
  cases q.cls <;> simp [RequestClass.same]

theorem Engine.holdsDuplicate_broadcast (e : Engine) {r : Request} {n : Nat} {f : Bool} (hr : r.cls = .broadcast n f) :
    Engine.holdsDuplicate e r = true ↔ ∃ q ∈ e.requests, Request.broadcastOf q r.packet.sequence := by
  simp only [Engine.holdsDuplicate, List.any_eq_true, Bool.and_eq_true, decide_eq_true_eq, hr]
  refine exists_congr fun q => and_congr_right fun _ => and_congr_left fun _ => ?_
  cases q.cls <;> simp [RequestClass.same]

/-! ### The outcomes of an arrival (R133 to R136) -/

section
variable {s : State} {r : Request}

theorem State.arrive_duplicate (h : Engine.holdsDuplicate s.engine r = true) : State.arrive s r = s := by
  rcases State.arrive_eq s r with ⟨-, he⟩ | ⟨-, hno, -⟩
  · exact he
  · rw [h] at hno; cases hno

theorem State.arrive_dropped (hd : Request.discardedBroadcast r = false) (hn : Engine.holdsDuplicate s.engine r = false)
    (hl : 4 ≤ s.engine.requests.length) :
    State.arrive s r = State.post (State.count s .requestsDropped) .requestDropped none none := by
  rcases State.arrive_eq s r with ⟨h | h, -⟩ | ⟨-, -, ⟨-, he⟩ | ⟨hs, -⟩⟩
  · rw [hd] at h; cases h
  · rw [hn] at h; cases h
  · exact he
  · omega

theorem State.arrive_joins (hd : Request.discardedBroadcast r = false) (hn : Engine.holdsDuplicate s.engine r = false)
    (hl : s.engine.requests.length ≤ 3) : State.arrive s r = State.take (State.joined s r) := by
  rcases State.arrive_eq s r with ⟨h | h, -⟩ | ⟨-, -, ⟨hs, -⟩ | ⟨-, he⟩⟩
  · rw [hd] at h; cases h
  · rw [hn] at h; cases h
  · omega
  · exact he

/-- A queue whose head may not be taken stays as it is (R136, R149). -/
theorem State.take_blocked {first : Request} {later : List Request} (hq : s.engine.requests = first :: later)
    (h : s.engine.resetPending ≠ none ∨ (first.cls = .addressed ∧ s.engine.replies.length = 4)) : State.take s = s := by
  rcases h with h | ⟨hc, hl⟩
  · exact State.take_pending s h
  · refine State.take_waits s first later hq ?_
    simp [Engine.mayTake, hc, hl]

end

theorem exec_takeRequest {s : State} (hr : s.resetN = true) : exec .takeRequest s = .next (State.take s) :=
  takenWhen_next hr rfl _

end Sys2Proof.Machine

namespace Sys2Proof.Proofs

open Sys2Proof Sys2Proof.Machine

set_option Elab.async false

/-- Settles O46: the request that a command delivers arrives, and its class decides which queued requests are its duplicates. -/
theorem arrivalIsTested : Obligations.ArrivalIsTested := by
  intro s d c op params hr hc dropped joins
  have hp : params.length ≤ 56 := hc.1
  have hexec := exec_of_deliveredBy (deliveredBy_of_deliversRequest hc) s
  have joins_of {u : State} {r : Request} (hu : u.engine = s.engine) (hun : u.resetN = true)
      (ht : State.deliver s d op params = State.take (State.joined u r)) : joins u r := by
    refine ⟨by rw [hexec, ht, exec_takeRequest (s := State.joined u r) hun], fun first later hq hwait => ?_⟩
    rw [hexec, ht, State.take_blocked (first := first) (later := later) (by rw [State.joined_requests, hu, hq])
      (by rw [State.joined_resetPending, State.joined_replies, hu]; exact hwait)]
  refine ⟨fun hnot => ?notConsumed, fun destination hd => ?addressed, fun hf => ⟨fun ho => ?outside, fun ho => ?broadcast⟩⟩
  case notConsumed =>
    have hnone : State.consumedAs s d.form = none := by
      rcases hnot with ⟨hf, hn⟩ | ⟨hf, hn⟩ <;> simp [State.consumedAs, hf, hn]
    rw [hexec, State.deliver, hr, hnone]; rfl
  case addressed =>
    have hdup := Engine.holdsDuplicate_addressed s.engine (r := Delivery.request d destination .addressed op params) rfl
    have harrive := State.deliver_addressed hr hd hp (op := op)
    refine ⟨fun hq => ?_, fun hq => ?_⟩
    · rw [hexec, harrive, State.arrive_duplicate (hdup.2 hq)]
    · have hno : Engine.holdsDuplicate s.engine (Delivery.request d destination .addressed op params) = false :=
        Bool.eq_false_iff.2 fun hyes => by
          obtain ⟨q, hm, hcls, hseq⟩ := hdup.1 hyes
          exact hq q hm hcls hseq
      refine ⟨fun hl => ?_, fun hl => joins_of rfl hr (harrive.trans (State.arrive_joins rfl hno hl))⟩
      rw [hexec, harrive, State.arrive_dropped rfl hno hl.ge]; rfl
  case outside =>
    rw [Operation.inSubset_iff] at ho
    rw [hexec, State.deliver_outside hr hf hp (Bool.not_eq_true _ ▸ ho)]
  case broadcast =>
    rw [Operation.inSubset_iff] at ho
    have hdis : Request.discardedBroadcast (State.broadcastRequest s d op params) = false := by
      rw [Delivery.discarded_broadcast, ho]; rfl
    have hdup := Engine.holdsDuplicate_broadcast (State.numbered s).engine (r := State.broadcastRequest s d op params) rfl
    have harrive := State.deliver_broadcast hr hf hp (op := op)
    refine ⟨fun hq => ?_, fun hq => ?_⟩
    · rw [hexec, harrive, State.arrive_duplicate (hdup.2 hq)]
    · have hno : Engine.holdsDuplicate (State.numbered s).engine (State.broadcastRequest s d op params) = false :=
        Bool.eq_false_iff.2 fun hyes => by
          obtain ⟨q, hm, hq'⟩ := hdup.1 hyes
          exact hq q hm hq'
      refine ⟨fun hl => ?_, fun hl => joins_of rfl hr (harrive.trans (State.arrive_joins hdis hno hl))⟩
      rw [hexec, harrive, State.arrive_dropped hdis hno hl.ge]; rfl

/-- Settles O44: an accepted RESET_NODE is an answer like any other, and while a reset is pending an arrival's taking does
nothing. -/
theorem resetNodeIsNoted : Obligations.ResetNodeIsNoted := by
  intro s d noted
  refine ⟨fun h => ⟨?cold, ?warm⟩, fun h => ⟨?broadcastCold, ?broadcastWarm⟩, fun hr hpend => ⟨?take, ?waits⟩⟩
  case cold =>
    refine (exec_of_deliveredBy (d := d) (op := .resetNode) (params := [0x00#8]) rfl s).trans ?_
    rw [State.deliver_answered s d .resetNode [0x00#8] ⟨.ok, [0x00#8], noted .cold .replyCompletes⟩ h
      (by decide : (1 : Nat) ≤ 56) fun _ => rfl]
    rfl
  case warm =>
    refine (exec_of_deliveredBy (d := d) (op := .resetNode) (params := [0x01#8]) rfl s).trans ?_
    rw [State.deliver_answered s d .resetNode [0x01#8] ⟨.ok, [0x01#8], noted .warm .replyCompletes⟩ h
      (by decide : (1 : Nat) ≤ 56) fun _ => rfl]
    rfl
  case broadcastCold => exact exec_broadcast_ok rfl h (by decide : (1 : Nat) ≤ 56) rfl rfl
  case broadcastWarm => exact exec_broadcast_ok rfl h (by decide : (1 : Nat) ≤ 56) rfl rfl
  case take => rw [exec_takeRequest hr, State.take_pending s hpend]
  case waits =>
    intro op params c hc hl hq
    obtain ⟨-, haddressed, hbroadcast⟩ := arrivalIsTested s d c op params hr hc
    refine ⟨fun destination hd => ?_, fun hf ho => ?_⟩
    · obtain ⟨-, hwait⟩ := ((haddressed destination hd).2 fun q hm _ => hq q hm).2 hl
      obtain ⟨first, later, hfirst⟩ := List.exists_cons_of_ne_nil
        (List.append_ne_nil_of_right_ne_nil s.engine.requests (List.cons_ne_nil (Delivery.request d destination .addressed op params) []))
      exact hwait first later hfirst (.inl hpend)
    · obtain ⟨-, hwait⟩ := (((hbroadcast hf).2 ho).2 fun q hm hb => hq q hm hb.2).2 hl
      obtain ⟨first, later, hfirst⟩ := List.exists_cons_of_ne_nil
        (List.append_ne_nil_of_right_ne_nil s.engine.requests
          (List.cons_ne_nil (Delivery.request d 0x3F#8 (.broadcast s.service.nextRequest false) op params) []))
      exact hwait first later hfirst (.inl hpend)

/-- Settles O45: a broadcast switch request is taken at once, and its answer either changes the shadow state or is recorded as a
refusal. -/
theorem broadcastIsExecutedWithoutReply : Obligations.BroadcastIsExecutedWithoutReply := by
  intro s d h refusal
  have hfit (form hi lo : Octet) : [form, hi, lo].length ≤ 56 := by simp
  let schedule := fun hi lo : Octet => State.broadcastRequest s d .scheduleSwitch [0#8, hi, lo]
  refine ⟨fun hi lo hs ht => ⟨fun ha => ?accepted, fun ha => ?late⟩, fun hs ht hi lo => ?noTime, fun hi lo hs => ?wrongState,
    fun form hi lo hform => ?form, fun t hs => ?cancelled, fun hs => ?notPending, fun params hp => ⟨fun hl => ?length, fun hne => ?cancelLength⟩,
    fun op params c hc hp h1 h2 h3 => ?outside⟩
  case accepted =>
    exact exec_broadcast_ok rfl h (hfit ..) rfl
      (answerScheduleSwitch_accepted (s := State.cached s d.sequence) (r := schedule hi lo) rfl rfl hs ht ha)
  case late =>
    exact exec_broadcast_refused (op := .scheduleSwitch) (k := .tooLate) rfl h (hfit ..) (.inl rfl) (by decide)
      (answerScheduleSwitch_too_late (s := State.cached s d.sequence) (r := schedule hi lo) rfl rfl hs ht ha)
  case noTime =>
    exact exec_broadcast_refused (op := .scheduleSwitch) (k := .noRingTime) rfl h (hfit ..) (.inl rfl) (by decide)
      (answerScheduleSwitch_without_time (s := State.cached s d.sequence) (r := schedule hi lo) rfl rfl hs ht)
  case wrongState =>
    cases hshadow : s.mapStore.shadow with
    | checked => exact absurd hshadow hs
    | editable =>
      exact exec_broadcast_refused (op := .scheduleSwitch) (k := .wrongState) rfl h (hfit ..) (.inl rfl) (by decide)
        (answerScheduleSwitch_of_editable (s := State.cached s d.sequence) (r := schedule hi lo) rfl rfl hshadow)
    | pending t =>
      exact exec_broadcast_refused (op := .scheduleSwitch) (k := .wrongState) rfl h (hfit ..) (.inl rfl) (by decide)
        (answerScheduleSwitch_of_pending (s := State.cached s d.sequence) (r := schedule hi lo) rfl rfl hshadow)
  case form =>
    exact exec_broadcast_refused (op := .scheduleSwitch) (k := .badParameter) rfl h (hfit ..) (.inl rfl) (by decide)
      (answerScheduleSwitch_of_form (r := State.broadcastRequest s d .scheduleSwitch [form, hi, lo]) rfl hform)
  case cancelled =>
    refine exec_broadcast_ok (contents := octets16 t) (params := []) rfl h (Nat.zero_le _) rfl ?_
    change answerCancelSwitch [] (State.cached s d.sequence) = _
    simp only [answerCancelSwitch, show (State.cached s d.sequence).mapStore.shadow = .pending t from hs, List.isEmpty_nil, if_true]
    rfl
  case notPending =>
    refine exec_broadcast_refused (op := .cancelSwitch) (k := .wrongState) (params := [])
      (contents := [ShadowState.code s.mapStore.shadow]) rfl h
      (Nat.zero_le _) (.inr rfl) (by decide) ?_
    change answerCancelSwitch [] (State.cached s d.sequence) = _
    have hshadow : (State.cached s d.sequence).mapStore.shadow = s.mapStore.shadow := rfl
    rcases hs with hs | hs <;> simp only [answerCancelSwitch, hshadow, hs, List.isEmpty_nil, if_true]
  case length =>
    exact exec_broadcast_refused (op := .scheduleSwitch) (k := .badLength) rfl h hp (.inl rfl) (by decide)
      (answerScheduleSwitch_of_length (r := State.broadcastRequest s d .scheduleSwitch params) hl)
  case cancelLength =>
    exact exec_broadcast_refused (op := .cancelSwitch) (k := .badLength) rfl h hp (.inr rfl) (by decide)
      (answerCancelSwitch_of_params hne _)
  case outside =>
    have ho : Operation.executedWhenBroadcast op = false := Bool.eq_false_iff.2 fun hyes => by
      rcases (Operation.inSubset_iff op).2 hyes with e | e | e
      exacts [h1 e, h2 e, h3 e]
    exact exec_outside (deliveredBy_requestCommand hc) h hp ho

end Sys2Proof.Proofs

/-! SUPPORT. The notification slot (R156 to R158, R164, R166): which class fills it, what a change to QUIET leaves of it, and the
settlement of O30 and O32. -/

namespace Sys2Proof.Machine

set_option Elab.async false

/-! ### The resend that is due (R164) -/

/-- The resend of a class is due (R164). -/
abbrev EventUnit.resends (ev : EventUnit) (c : ClassId) : Prop := ∃ v, ev.service[c] = some v ∧ v.resendDue = true

/-- The same, as the test finds it. -/
def EventUnit.mayResend (ev : EventUnit) (c : ClassId) : Bool :=
  match ev.service[c] with
  | some v => v.resendDue
  | none => false

theorem EventUnit.mayResend_iff (ev : EventUnit) (c : ClassId) : EventUnit.mayResend ev c = true ↔ EventUnit.resends ev c := by
  unfold EventUnit.mayResend EventUnit.resends
  cases ev.service[c] <;> simp

theorem EventUnit.firstResend_eq (ev : EventUnit) : EventUnit.firstResend ev = ev.order.find? (EventUnit.mayResend ev) := rfl

section
variable {ev : EventUnit} {before after : List ClassId} {c : ClassId}

theorem EventUnit.firstResend_of_split (ho : ev.order = before ++ c :: after) (hb : ∀ d ∈ before, ¬EventUnit.resends ev d)
    (hc : EventUnit.resends ev c) : EventUnit.firstResend ev = some c := by
  rw [EventUnit.firstResend_eq, ho, List.find?_append,
    List.find?_eq_none.2 fun d hd => mt (EventUnit.mayResend_iff ev d).1 (hb d hd),
    List.find?_cons_of_pos ((EventUnit.mayResend_iff ev c).2 hc)]
  rfl

theorem EventUnit.firstResend_none (h : ∀ d ∈ ev.order, ¬EventUnit.resends ev d) : EventUnit.firstResend ev = none := by
  rw [EventUnit.firstResend_eq]
  exact List.find?_eq_none.2 fun d hd => mt (EventUnit.mayResend_iff ev d).1 (h d hd)

/-! ### The first eligible class (R156, R157) -/

theorem EventUnit.firstEligible_of_split (ho : ev.order = before ++ c :: after)
    (hb : ∀ d ∈ before, ev.service[d] = none ∧ (ev.masked[d] = true ∨ ev.queues[d] = [])) (hs : ev.service[c] = none)
    (hm : ev.masked[c] = false) (hq : ev.queues[c] ≠ []) : EventUnit.firstEligible ev = some c := by
  have hbefore : before.find? (fun d => !ev.masked[d] && !ev.queues[d].isEmpty) = none := List.find?_eq_none.2 fun d hd => by
    rcases (hb d hd).2 with h | h <;> simp [h]
  have hwhile : ev.order.takeWhile (fun d => ev.service[d].isNone) =
      before ++ c :: after.takeWhile fun d => ev.service[d].isNone := by
    rw [ho, List.takeWhile_append_of_pos fun d hd => by rw [(hb d hd).1]; rfl, List.takeWhile_cons_of_pos (by rw [hs]; rfl)]
  rw [EventUnit.firstEligible, hwhile, List.find?_append, hbefore, Option.none_or, List.find?_cons_of_pos]
  rw [hm, List.isEmpty_eq_false_iff.2 hq]; rfl

/-- Where every class that has records to send is masked or stands at or behind a class in service, none is eligible (R157). -/
theorem EventUnit.firstEligible_none
    (h : ∀ (before : List ClassId) (c : ClassId) (after : List ClassId), ev.order = before ++ c :: after →
      ev.queues[c] ≠ [] → ev.masked[c] = false → ∃ d ∈ before ++ [c], ev.service[d] ≠ none) :
    EventUnit.firstEligible ev = none := by
  refine Option.eq_none_iff_forall_ne_some.2 fun c hc => ?_
  obtain ⟨-, hmasked, hqueue⟩ := EventUnit.firstEligible_some ev c hc
  obtain ⟨-, before, after, hwhile, -⟩ := List.find?_eq_some_iff_append.1 hc
  have hsplit : ev.order = before ++ c :: (after ++ ev.order.dropWhile fun d => ev.service[d].isNone) := by
    conv => lhs; rw [← List.takeWhile_append_dropWhile (p := fun d => ev.service[d].isNone) (l := ev.order), hwhile]
    simp
  obtain ⟨d, hd, hserved⟩ := h before c _ hsplit hqueue hmasked
  have hfree : ev.service[d].isNone = true := by
    refine List.mem_takeWhile_imp (l := ev.order) (p := fun d => ev.service[d].isNone) ?_
    rw [hwhile]
    rcases List.mem_append.1 hd with hd | hd
    · exact List.mem_append_left _ hd
    · rw [List.mem_singleton.1 hd]; exact List.mem_append_cons_self
  exact hserved (Option.isNone_iff_eq_none.1 hfree)

/-! ### The test by what it finds (R157) -/

variable {address : Option (BitVec 6)}

theorem EventUnit.test_of_slot {x : ClassId × Packet} (hs : ev.slot = some x) : EventUnit.test address ev = ev := by
  simp only [EventUnit.test, hs]

theorem EventUnit.test_of_resend {v : InService} (hs : ev.slot = none) (hr : EventUnit.firstResend ev = some c)
    (hv : ev.service[c] = some v) :
    EventUnit.test address ev = { ev with
      slot := some (c, Packet.repeated v.packet), service := ev.service.set c (some { v with resendDue := false }) } := by
  simp only [EventUnit.test, hs, hr, EventUnit.fillResend, hv]

theorem EventUnit.test_of_eligible {a : BitVec 6} (hs : ev.slot = none) (hr : EventUnit.firstResend ev = none)
    (hn : ev.notifier = .active) (hc : EventUnit.firstEligible ev = some c) :
    EventUnit.test (some a) ev = EventUnit.build ev a c := by
  simp only [EventUnit.test, hs, hr, hn, hc]

theorem EventUnit.test_of_barred (hr : EventUnit.firstResend ev = none) (h : ev.notifier = .quiet ∨ address = none) :
    EventUnit.test address ev = ev := by
  cases hs : ev.slot with
  | some x => exact EventUnit.test_of_slot hs
  | none =>
    rcases h with h | h
    · simp only [EventUnit.test, hs, hr, h]
    · simp only [EventUnit.test, hs, hr, h]
      cases ev.notifier <;> rfl

theorem EventUnit.test_of_none (hr : EventUnit.firstResend ev = none) (he : EventUnit.firstEligible ev = none) :
    EventUnit.test address ev = ev := by
  rcases EventUnit.test_cases address ev with e | ⟨c, v, -, h, -⟩ | ⟨c, a, -, -, -, -, h, -⟩
  · exact e
  · rw [hr] at h; cases h
  · rw [he] at h; cases h

end

/-- The notification that is built, its records counted (R158). -/
theorem EventUnit.build_eq (ev : EventUnit) (a : BitVec 6) (c : ClassId) :
    EventUnit.build ev a c =
      let r := min 4 ev.queues[c].length
      let packet : Packet :=
        { destination := 0#8, source := 0#2 ++ a, kind := 0x03#8, sequence := ev.notifySequence
          operation := BitVec.ofNat 8 c.val
          params := [ev.lost[c], BitVec.ofNat 8 r] ++ (ev.queues[c].take r).flatMap EventRecord.octets }
      { ev with
        notifySequence := ev.notifySequence + 1#8
        service := ev.service.set c (some { packet := packet, carried := r, snapshot := ev.lost[c], retries := 0, timer := none
                                            resendDue := false })
        slot := some (c, packet) } := by
  have hcount : (ev.queues[c].take 4).length = min 4 ev.queues[c].length := List.length_take
  have hrecords : ev.queues[c].take (min 4 ev.queues[c].length) = ev.queues[c].take 4 := by
    rw [List.take_eq_take_iff]; omega
  simp only [EventUnit.build, EventUnit.notification, hcount, hrecords]
  rfl

/-! ### QUIET (R166) -/

/-- A post's record leaves the notification service, the slot and the notifier as they were (R154). -/
theorem EventUnit.record_service (ev : EventUnit) (sf : Superframe) (k : EventKind) (src : Option WatchId) (val : Option Sample) :
    (EventUnit.record ev sf k src val).service = ev.service ∧ (EventUnit.record ev sf k src val).slot = ev.slot ∧
      (EventUnit.record ev sf k src val).notifier = ev.notifier := by
  rcases EventUnit.record_cases ev sf k src val with ⟨-, e⟩ | ⟨-, r, -, e⟩ | ⟨-, -, -, e⟩ | ⟨-, -, -, e⟩ <;> rw [e] <;>
    exact ⟨rfl, rfl, rfl⟩

theorem EventUnit.goQuiet_service (sf : Superframe) (ev : EventUnit) :
    (∀ d : ClassId, (EventUnit.goQuiet sf ev).service[d] = none) ∧ (EventUnit.goQuiet sf ev).slot = none ∧
      (EventUnit.goQuiet sf ev).notifier = .quiet := by
  obtain ⟨hservice, hslot, hnotifier⟩ := EventUnit.record_service
    { ev with service := Vector.replicate 8 none, slot := none, notifier := .quiet, quietWait := [] } sf .notifierQuiet none none
  refine ⟨fun d => ?_, hslot, hnotifier⟩
  rw [EventUnit.goQuiet, hservice]
  simp

/-- After a change to QUIET the test of R157 finds nothing to send. -/
theorem EventUnit.test_goQuiet (address : Option (BitVec 6)) (sf : Superframe) (ev : EventUnit) :
    EventUnit.test address (EventUnit.goQuiet sf ev) = EventUnit.goQuiet sf ev := by
  obtain ⟨hservice, -, hnotifier⟩ := EventUnit.goQuiet_service sf ev
  refine EventUnit.test_of_barred (EventUnit.firstResend_none fun d _ ⟨v, hv, _⟩ => ?_) (.inl hnotifier)
  rw [hservice d] at hv; cases hv

section
variable {ev : EventUnit} {c : ClassId} {v : InService} {sf : Superframe} {address : Option (BitVec 6)} {emitting : Bool}
  (hv : ev.service[c] = some v)
include hv

theorem EventUnit.expiryDue_iff : EventUnit.expiryDue ev c = true ↔ v.timer = some 0 := by
  simp only [EventUnit.expiryDue, hv, beq_iff_eq]

theorem EventUnit.expire_of_due (ht : v.timer = some 0) :
    EventUnit.expire sf address emitting c ev = EventUnit.test address
      (if v.retries < 4 then
        { ev with service := ev.service.set c (some { v with retries := v.retries + 1, timer := none, resendDue := true }) }
      else if emitting then
        { ev with quietWait := ev.quietWait ++ [c], service := ev.service.set c (some { v with timer := none }) }
      else EventUnit.goQuiet sf ev) := by
  simp only [EventUnit.expire, (EventUnit.expiryDue_iff hv).2 ht, if_true, hv]

end

theorem exec_retryTimerExpiry {s : State} {c : ClassId} (hr : s.resetN = true) (hd : EventUnit.expiryDue s.events c = true) :
    exec (.retryTimerExpiry c) s = .next { s with
      events := EventUnit.expire s.aligner.flywheel.superframe s.engine.address (State.notificationEmitting s) c s.events } :=
  takenWhen_next hr hd _

end Sys2Proof.Machine

namespace Sys2Proof.Proofs

open Sys2Proof Sys2Proof.Machine

set_option Elab.async false

/-- Settles O32: the slot, the first resend and the first eligible class decide the test, in that order. -/
theorem slotIsFilledInOrder : Obligations.SlotIsFilledInOrder := by
  intro ev address due
  refine ⟨fun x hx => EventUnit.test_of_slot hx, fun before c after v hs ho hb hv hr => ?resend,
    fun before c after a hs hn ha ho hdue hb hc hm hq => ?fresh, fun hdue h => ?barred, fun hdue h => ?none⟩
  case resend => exact EventUnit.test_of_resend hs (EventUnit.firstResend_of_split ho hb ⟨v, hv, hr⟩) hv
  case fresh =>
    subst ha
    exact (EventUnit.test_of_eligible hs (EventUnit.firstResend_none hdue) hn
      (EventUnit.firstEligible_of_split ho hb hc hm hq)).trans (EventUnit.build_eq ev a c)
  case barred => exact EventUnit.test_of_barred (EventUnit.firstResend_none hdue) h
  case none => exact EventUnit.test_of_none (EventUnit.firstResend_none hdue) (EventUnit.firstEligible_none h)

/-- Settles O30: the retry count and the notification in emission decide what an expiry does, and QUIET leaves nothing for the
test of R157. -/
theorem retryTimerExpires : Obligations.RetryTimerExpires := by
  intro s c v hr hv ht
  have hexec := exec_retryTimerExpiry hr ((EventUnit.expiryDue_iff hv).2 ht)
  rw [EventUnit.expire_of_due hv ht] at hexec
  refine ⟨fun hlow => ?resend, fun hfour he => ?waits, fun hfour he => ?quiet⟩
  case resend => rw [hexec, if_pos hlow]
  case waits => rw [hexec, if_neg (by omega), if_pos he]
  case quiet =>
    have hnot : ¬State.notificationEmitting s = true := Bool.eq_false_iff.1 he
    obtain ⟨hservice, hslot, hnotifier⟩ := EventUnit.goQuiet_service s.aligner.flywheel.superframe s.events
    refine ⟨_, hexec, ?_, ?_⟩
    · rw [if_neg (by omega), if_neg hnot, EventUnit.test_goQuiet]; rfl
    · rw [if_neg (by omega), if_neg hnot, EventUnit.test_goQuiet]
      exact ⟨hnotifier, hslot, hservice⟩

end Sys2Proof.Proofs

/-! SUPPORT. The elastic stores case by case (R75 to R82), local frames and the watchdog's share (R73, R74, R77, R78, R85), the
completion of a payload (R51, R76), and the settlement of O25, O28 and O29. -/

namespace Sys2Proof.Machine

set_option Elab.async false

/-! ### One write and one read of a store (R75 to R82) -/

section
variable {st : Store} {f g : LocalSamples}

theorem Store.write_of_stopped (hs : st.state = .stopped) : Store.write st f = (st, false) := by
  simp only [Store.write, hs]

theorem Store.write_of_first (hs : st.state = .priming) (hf : st.frames = []) :
    Store.write st f = ({ st with frames := [f] }, false) := by
  simp [Store.write, hs, hf]

theorem Store.write_of_second (hs : st.state = .priming) (hf : st.frames = [g]) :
    Store.write st f = ({ st with state := .running, frames := [g, f] }, false) := by
  simp [Store.write, hs, hf]

theorem Store.write_of_room (hs : st.state = .running) (hl : st.frames.length ≤ 3) :
    Store.write st f = ({ st with frames := st.frames ++ [f] }, false) := by
  simp only [Store.write, hs, if_neg (show ¬4 ≤ st.frames.length by omega)]

theorem Store.write_of_full (hs : st.state = .running) (hl : st.frames.length = 4) :
    Store.write st f = ({ st with frames := st.frames.drop 1 ++ [f] }, true) := by
  simp only [Store.write, hs, if_pos hl.ge, List.drop_one]

theorem Store.read_of_priming (idle : Sample) (hs : st.state = .priming) :
    Store.read st idle = (st, Vector.replicate 32 idle, false) := by
  simp only [Store.read, hs]; rfl

theorem Store.read_of_running (idle : Sample) {rest : List LocalSamples} (hs : st.state = .running) (hf : st.frames = f :: rest) :
    Store.read st idle = ({ st with frames := rest, last := some f }, f, false) := by
  simp only [Store.read, hs, hf]

theorem Store.read_of_empty (idle : Sample) (hs : st.state = .running) (hf : st.frames = []) (hl : st.last = some f) :
    Store.read st idle = (st, f, true) := by
  simp only [Store.read, hs, hf, hl, Option.getD_some]

end

/-! ### The operations of the port by what the store does -/

section
variable {s : State} {f : LocalSamples} {st : Store} {slip : Bool}

theorem State.writeDrop_of_write (h : Store.write s.port.drop f = (st, slip)) :
    State.writeDrop s f = State.dropSlip { s with port := { s.port with drop := st } } slip := by
  simp only [State.writeDrop, h]

theorem State.writeAdd_of_write (h : Store.write s.port.add f = (st, slip)) :
    State.writeAdd s f = State.addSlip { s with port := { s.port with add := st } } slip := by
  simp only [State.writeAdd, h]

theorem State.beginLocalFrame_of_read (hs : s.port.drop.state ≠ .stopped)
    (h : Store.read s.port.drop s.ringOut.idleWord = (st, f, slip)) :
    State.beginLocalFrame s = State.dropSlip { s with port := { s.port with
      drop := st, localFrame := some { edges := 0, addSoFar := [], out := some f }, startDue := false } } slip := by
  simp only [State.beginLocalFrame, h, if_neg hs]

end

theorem LocalPort.frameInProgress_iff (p : LocalPort) :
    LocalPort.frameInProgress p = true ↔ ∃ lf, p.localFrame = some lf ∧ lf.edges < 768 := by
  unfold LocalPort.frameInProgress
  cases p.localFrame <;> simp

theorem State.completeLocalFrame_of_frame {s : State} {f : LocalSamples} {lf : LocalFrame} (hf : s.port.localFrame = some lf)
    (he : lf.edges < 768) :
    State.completeLocalFrame s f = State.writeAdd { s with port := { s.port with
      localFrame := some { lf with edges := 768, addSoFar := f.toList } } } f := by
  have hin : LocalPort.frameInProgress s.port = true := (LocalPort.frameInProgress_iff _).2 ⟨lf, hf, he⟩
  simp only [State.completeLocalFrame, hin, if_true, hf, Option.map_some]

theorem exec_localFrameComplete {s : State} {f : LocalSamples} (hr : s.resetN = true) (hm : s.port.mode ≠ .disabled) :
    exec (.localFrameComplete f) s = .next (State.completeLocalFrame s f) :=
  takenWhen_next hr (decide_eq_true hm) _

/-- A local frame start that the node's mode takes (R73, R85). -/
theorem exec_localFrameStart_follow {s : State} (hr : s.resetN = true) (hm : s.port.mode = .follow)
    (hd : s.port.startDue = true) : exec .localFrameStart s = .next (State.beginLocalFrame s) := by
  change execLocalFrameStart s = _
  simp only [execLocalFrameStart, hm]
  exact takenWhen_next hr hd _

theorem exec_localFrameStart_external {s : State} (hr : s.resetN = true) (hm : s.port.mode = .external) :
    exec .localFrameStart s = .next (State.externalStart s) := by
  change execLocalFrameStart s = _
  simp only [execLocalFrameStart, hm]
  exact takenWhen_next hr rfl _

/-- At a frame start of EXTERNAL whose timing stands, the watchdog count becomes 0 and the local frame starts (R85). -/
theorem State.externalStart_fed {s : State} (ht : s.port.timingLost = false) :
    State.externalStart s = State.beginLocalFrame { s with port := { s.port with watchdog := 0 } } := by
  simp only [State.externalStart, ht, Bool.false_eq_true, if_false]

theorem State.externalStart_restored {s : State} (ht : s.port.timingLost = true) :
    State.externalStart s = State.beginLocalFrame (State.restoreLocalTiming s) := by
  simp only [State.externalStart, ht, if_true]

/-! ### The pins in FOLLOW (R73, R87, R197) -/

theorem LocalPort.frameUnderWay_iff (p : LocalPort) :
    LocalPort.frameUnderWay p = true ↔ p.startDue = true ∨ ∃ lf, p.localFrame = some lf ∧ lf.edges < 768 := by
  rw [LocalPort.frameUnderWay, Bool.or_eq_true, LocalPort.frameInProgress_iff]

theorem State.pins_lclk_iff {s : State} (hr : s.resetN = true) :
    ((State.pins s).lclk = .output ↔ s.port.mode = .follow) ∧ ((State.pins s).lfs = .output ↔ s.port.mode = .follow) := by
  simp only [State.pins, hr, if_true, LocalPort.pins]
  cases s.port.mode <;> simp

/-! ### The watchdog's share of a mark (R85, log entry 14) -/

theorem State.boundaryReset_idem (s : State) : State.boundaryReset (State.boundaryReset s) = State.boundaryReset s := by
  obtain h | ⟨scope, h⟩ := State.boundaryReset_cases s
  · rw [h, h]
  · rw [h, State.boundaryReset_resetBy]

theorem State.endFrame_boundary (s : State) : ∃ x, State.endFrame s = State.boundaryReset x := by
  cases hc : s.ringOut.current with
  | none => exact ⟨s, State.endFrame_of_none hc⟩
  | some e => exact ⟨_, State.endFrame_of_some hc⟩

/-- A frame that has ended does not end again (R144). -/
theorem State.endFrame_idem (s : State) : State.endFrame (State.endFrame s) = State.endFrame s := by
  obtain ⟨x, hx⟩ := State.endFrame_boundary s
  rw [State.endFrame_of_none (State.endFrame_current s), hx, State.boundaryReset_idem]

theorem exec_localTimingLost {s : State} (hr : s.resetN = true) (hm : (State.endFrame s).port.mode = .external)
    (ht : (State.endFrame s).port.timingLost = false) (hw : (State.endFrame s).port.watchdog = 3) :
    exec .localTimingLost s = .next (State.watchdogShare (State.endFrame s)) := by
  refine takenWhen_next hr ?_ _
  rw [LocalPort.lossDue, hm, ht, hw]
  rfl

/-! ### The completion of a payload (R51, R76) -/

/-- Without a local start that is due, the arbiter's choice is settled and the drop frame is written (R76, R124). -/
theorem State.finishPayload_of_open {s : State} {e : Emission} (hc : s.ringOut.current = some e) (hd : e.payloadDone = false)
    (hstart : s.port.startDue = false) :
    State.finishPayload s = State.writeDrop
      { State.settleChoice s with ringOut := { s.ringOut with current := some { e with payloadDone := true } } } e.drop := by
  have hlocal : State.settleLocalStart s = s := by simp only [State.settleLocalStart, hstart, Bool.false_eq_true, if_false]
  have hring : (State.settleChoice s).ringOut = s.ringOut := by rw [State.settleChoice_frame]
  simp only [State.finishPayload, hc, hd, hlocal, hring, Bool.false_eq_true, if_false]

theorem exec_payloadComplete {s : State} (hr : s.resetN = true) : exec .payloadComplete s = .next (State.finishPayload s) :=
  takenWhen_next hr rfl _

end Sys2Proof.Machine

namespace Sys2Proof.Proofs

open Sys2Proof Sys2Proof.Machine

set_option Elab.async false

/-- Settles O25: a payload is completed once, and the state and the fill of the Drop Store say what its write does. -/
theorem payloadCompleteWritesTheDropFrame : Obligations.PayloadCompleteWritesTheDropFrame := by
  intro s e hr hc hstart
  have hexec := exec_payloadComplete hr
  refine ⟨fun hd => ?done, fun hd => ⟨State.settleChoice s, State.settleChoice_settled s, ?_⟩⟩
  case done => rw [hexec, State.finishPayload_of_done hc hd]
  intro done written
  have hsettled := State.settleChoice_frame s
  have hport : done.port = s.port := by change (State.settleChoice s).port = s.port; rw [hsettled]
  have hwrite {st : Store} {slip : Bool} (h : Store.write s.port.drop e.drop = (st, slip)) :
      exec .payloadComplete s = .next (State.dropSlip (written st) slip) := by
    rw [hexec, State.finishPayload_of_open hc hd hstart]
    change Host.Outcome.next (State.writeDrop done e.drop) = _
    have hdone : Store.write done.port.drop e.drop = (st, slip) := by rw [hport]; exact h
    rw [State.writeDrop_of_write hdone, hport]
  refine ⟨fun hs => ?stopped, fun hs hf => ?first, fun f hs hf => ?second, fun hs hl => ?room, fun hs hl => ?full⟩
  case stopped =>
    rw [hwrite (Store.write_of_stopped hs)]
    change Host.Outcome.next { done with port := s.port } = _
    rw [← hport]
  case first => exact hwrite (Store.write_of_first hs hf)
  case second => exact hwrite (Store.write_of_second hs hf)
  case room => exact hwrite (Store.write_of_room hs hl)
  case full =>
    rw [hwrite (Store.write_of_full hs hl)]
    have hcounters : done.counters = s.counters := by change (State.settleChoice s).counters = s.counters; rw [hsettled]
    have hevents : done.events = s.events := by change (State.settleChoice s).events = s.events; rw [hsettled]
    have haligner : done.aligner = s.aligner := by change (State.settleChoice s).aligner = s.aligner; rw [hsettled]
    have hengine : done.engine = s.engine := by change (State.settleChoice s).engine = s.engine; rw [hsettled]
    rw [← hcounters, ← hevents, ← haligner, ← hengine]
    rfl

/-- Settles O28: the mode says whether a frame start is taken, and the Drop Store's read what the local frame delivers. -/
theorem localFrameStarts : Obligations.LocalFrameStarts := by
  intro s hr started fed primed restored
  have hnotStopped {p : LocalPort} (h : p.drop.state = .priming ∨ p.drop.state = .running) : p.drop.state ≠ .stopped := by
    rcases h with h | h <;> rw [h] <;> decide
  refine ⟨fun hm => ?disabled, fun hm hd => ?notDue, fun hm hd hs => ?followPriming, fun f rest hm hd hs hf => ?followRunning,
    fun hm ht hs => ?fedPriming, fun f rest hm ht hs hf => ?fedRunning, fun f hm ht hs hf hl => ?fedEmpty, fun hm ht => ?restored, ?_⟩
  case disabled =>
    change execLocalFrameStart s = _
    simp only [execLocalFrameStart, hm]
  case notDue =>
    change execLocalFrameStart s = _
    simp only [execLocalFrameStart, hm, takenWhen, hd, Bool.and_false, Bool.false_eq_true, if_false]
  case followPriming =>
    rw [exec_localFrameStart_follow hr hm hd,
      State.beginLocalFrame_of_read (hnotStopped (.inl hs)) (Store.read_of_priming _ hs)]
    rfl
  case followRunning =>
    rw [exec_localFrameStart_follow hr hm hd,
      State.beginLocalFrame_of_read (hnotStopped (.inr hs)) (Store.read_of_running _ hs hf)]
    rfl
  case fedPriming =>
    rw [exec_localFrameStart_external hr hm, State.externalStart_fed ht,
      State.beginLocalFrame_of_read (s := { s with port := fed }) (hnotStopped (p := fed) (.inl hs))
        (Store.read_of_priming (st := s.port.drop) _ hs)]
    rfl
  case fedRunning =>
    rw [exec_localFrameStart_external hr hm, State.externalStart_fed ht,
      State.beginLocalFrame_of_read (s := { s with port := fed }) (hnotStopped (p := fed) (.inr hs))
        (Store.read_of_running (st := s.port.drop) _ hs hf)]
    rfl
  case fedEmpty =>
    rw [exec_localFrameStart_external hr hm, State.externalStart_fed ht,
      State.beginLocalFrame_of_read (s := { s with port := fed }) (hnotStopped (p := fed) (.inr hs))
        (Store.read_of_empty (st := s.port.drop) _ hs hf hl)]
    rfl
  case restored =>
    rw [exec_localFrameStart_external hr hm, State.externalStart_restored ht,
      State.beginLocalFrame_of_read (s := State.restoreLocalTiming s) (st := primed) (hnotStopped (.inl rfl))
        (Store.read_of_priming (st := primed) _ rfl)]
    rfl
  intro underWay
  obtain ⟨hlclk, hlfs⟩ := State.pins_lclk_iff hr
  have hway : LocalPort.frameUnderWay s.port = true ↔ underWay := LocalPort.frameUnderWay_iff s.port
  refine ⟨fun hm hu => ?running, fun hm hu => ?held, fun hm => ?notDriven⟩
  case running =>
    refine ⟨?_, fun j => ?_⟩
    · rw [State.lclkLevel, if_neg (not_not.2 (hlclk.2 hm)), if_pos (hway.2 hu)]
    · rw [State.lfsLevel, if_neg (not_not.2 (hlfs.2 hm)), hway.2 hu, Bool.true_and]
  case held =>
    have hno : LocalPort.frameUnderWay s.port = false := Bool.eq_false_iff.2 (mt hway.1 hu)
    refine ⟨?_, fun j => ?_⟩
    · rw [State.lclkLevel, if_neg (not_not.2 (hlclk.2 hm)), hno, if_neg Bool.false_ne_true]
    · rw [State.lfsLevel, if_neg (not_not.2 (hlfs.2 hm)), hno, Bool.false_and]
  case notDriven =>
    refine ⟨?_, fun j => ?_⟩
    · rw [State.lclkLevel, if_pos (mt hlclk.1 hm)]
    · rw [State.lfsLevel, if_pos (mt hlfs.1 hm)]

/-- Settles O29: edge 768 is one write of the Add Store, and the watchdog's share follows the end of the emitted frame. -/
theorem localFrameCompletesOrIsLost : Obligations.LocalFrameCompletesOrIsLost := by
  intro s f hr store written
  refine ⟨fun lf hm hf he => ?complete, fun hno => ?none, fun u hu hm ht hw => ?afterFrame, fun hm ht hw hc hp => ?lost⟩
  case complete =>
    have hwrite {st : Store} {slip : Bool} (h : Store.write store f = (st, slip)) :
        exec (.localFrameComplete f) s = .next (State.addSlip (written lf st) slip) := by
      rw [exec_localFrameComplete hr hm, State.completeLocalFrame_of_frame hf he]
      exact congrArg Host.Outcome.next (State.writeAdd_of_write h)
    refine ⟨fun hs => hwrite (Store.write_of_stopped hs), fun hs hf => hwrite (Store.write_of_first hs hf),
      fun a hs hf => hwrite (Store.write_of_second hs hf), fun hs hl => hwrite (Store.write_of_room hs hl), fun hs hl => ?_⟩
    rw [hwrite (Store.write_of_full hs hl)]; rfl
  case none =>
    have hidle : LocalPort.frameInProgress s.port = false := Bool.eq_false_iff.2 fun hin => by
      obtain ⟨lf, hlf, hlt⟩ := (LocalPort.frameInProgress_iff s.port).1 hin
      exact absurd (hno lf hlf) (not_le.2 hlt)
    have hsame : State.completeLocalFrame s f = s := by simp only [State.completeLocalFrame, hidle, Bool.false_eq_true, if_false]
    change takenWhen _ s _ = _
    rw [hsame, takenWhen, ite_self]
  case afterFrame =>
    have hend : u = State.endFrame s := by
      have hexec : exec .emittedFrameBoundary s = .next (State.endFrame s) := takenWhen_next hr rfl _
      cases hu.symm.trans hexec; rfl
    subst hend
    rw [exec_localTimingLost hr hm ht hw]
    have hidem := State.endFrame_idem s
    rw [exec_localTimingLost ((State.endFrame_resetN s).trans hr) (by rw [hidem]; exact hm) (by rw [hidem]; exact ht)
      (by rw [hidem]; exact hw), hidem]
  case lost =>
    have hend : State.endFrame s = s := by rw [State.endFrame_of_none hc, State.boundaryReset, hp]
    rw [exec_localTimingLost hr (by rw [hend]; exact hm) (by rw [hend]; exact ht) (by rw [hend]; exact hw), hend]
    rfl

end Sys2Proof.Proofs

/-! SUPPORT. The end of a frame that carries an own packet's END (R127, R141, R160, R161, R166), and the settlement of O26. -/

namespace Sys2Proof.Machine

set_option Elab.async false

/-! ### The completion report at the Event Unit (R160, R161, R166) -/

section
variable {ev : EventUnit} {c : ClassId} {v : InService} {sequence : Octet}

theorem EventUnit.completeClass_timed (hv : ev.service[c] = some v) (hs : v.packet.sequence = sequence)
    (ha : ev.autoAck[c] = false) :
    EventUnit.completeClass ev c sequence =
      { ev with service := ev.service.set c (some { v with timer := some (16 * ev.retryTime.toNat) }) } := by
  simp [EventUnit.completeClass, hv, hs, ha]

theorem EventUnit.completeClass_acknowledged (hv : ev.service[c] = some v) (hs : v.packet.sequence = sequence)
    (ha : ev.autoAck[c] = true) : EventUnit.completeClass ev c sequence = EventUnit.acknowledge ev c v := by
  simp [EventUnit.completeClass, hv, hs, ha]

theorem EventUnit.completeClass_stale (h : ∀ v, ev.service[c] = some v → v.packet.sequence ≠ sequence) :
    EventUnit.completeClass ev c sequence = ev := by
  unfold EventUnit.completeClass
  split
  · next v hv => exact if_neg (h v hv)
  · rfl

/-- An acknowledgement withdraws the packet of its own class from the slot, and that one only (R162). -/
theorem EventUnit.acknowledge_slotOf (ev : EventUnit) (c : ClassId) (v : InService) :
    (EventUnit.acknowledge ev c v).slot = if ev.slot.any (fun x => x.1 = c) then none else ev.slot := by
  simp only [EventUnit.acknowledge]
  rcases ev.slot with _ | ⟨d, p⟩
  · rfl
  · by_cases h : d = c <;> simp [h]

variable (sf : Superframe) (address : Option (BitVec 6))

theorem EventUnit.notificationComplete_done (h : (EventUnit.completeClass ev c sequence).quietWait = []) :
    EventUnit.notificationComplete sf address c sequence ev =
      EventUnit.test address (EventUnit.completeClass ev c sequence) := by
  simp only [EventUnit.notificationComplete, h, List.isEmpty_nil, if_true]

theorem EventUnit.notificationComplete_quiets (h : (EventUnit.completeClass ev c sequence).quietWait ≠ []) :
    EventUnit.notificationComplete sf address c sequence ev =
      EventUnit.goQuiet sf (EventUnit.completeClass ev c sequence) := by
  rw [EventUnit.notificationComplete, if_neg (by simpa using h), EventUnit.test_goQuiet]

end

/-! ### The report at the node (R127) -/

theorem State.take_of_empty {s : State} (h : s.engine.requests = []) : State.take s = s := by
  simp only [State.take, h]

section
variable {s : State} {e : Emission} (hr : s.resetN = true) (hc : s.ringOut.current = some e) (hd : e.payloadDone = true)
include hr hc hd

/-- The report ends the frame and tells the owner of the packet. -/
theorem exec_ownPacketComplete (ho : State.carriesOwnEnd s = true) :
    exec .ownPacketComplete s = .next
      (State.boundaryReset (State.report { s with ringOut := { s.ringOut with current := none } } e.ends)) :=
  (takenWhen_next hr ho _).trans (congrArg Host.Outcome.next (State.endFrame_of_done hc hd))

theorem exec_notificationReport (hp : s.engine.resetPending = none) {c : ClassId} {sequence : Octet}
    (he : e.ends = .notification c sequence) :
    exec .ownPacketComplete s = .next { s with
      ringOut := { s.ringOut with current := none }
      events := EventUnit.notificationComplete s.aligner.flywheel.superframe s.engine.address c sequence s.events } := by
  rw [exec_ownPacketComplete hr hc hd (by simp only [State.carriesOwnEnd, hc, he]), he]
  exact congrArg Host.Outcome.next (State.boundaryReset_waits fun p hp' => nomatch hp.symm.trans hp')

theorem exec_replyReport (hp : s.engine.resetPending = none) {r : Reply} {rest : List Reply} (he : e.ends = .reply)
    (hreplies : s.engine.replies = r :: rest) (hb : r.begun = true) :
    exec .ownPacketComplete s = .next (State.boundaryReset (State.take { s with
      ringOut := { s.ringOut with current := none }, engine := { s.engine with replies := rest } })) := by
  rw [exec_ownPacketComplete hr hc hd (State.carriesOwnEnd_reply hc he), he]
  simp only [State.report, State.replyComplete, hreplies, hp, List.eraseP_cons_of_pos hb, List.find?_cons_of_pos hb]

end

end Sys2Proof.Machine

namespace Sys2Proof.Proofs

open Sys2Proof Sys2Proof.Machine

set_option Elab.async false

/-- Settles O26: the report goes to the owner of the packet; a reply's is a taking at the boundary, a notification's is acted on
before the change to QUIET that waits for it. -/
theorem ownPacketIsReported : Obligations.OwnPacketIsReported := by
  intro s e hr hc hd hp ended quieted freed
  refine ⟨fun r rest he hreplies hb => ?reply, fun c sequence v he hv hs => ?served, fun c sequence he hstale => ?stale⟩
  case reply =>
    intro removed
    have hexec : exec .ownPacketComplete s = .next (State.boundaryReset (State.take removed)) :=
      exec_replyReport hr hc hd hp he hreplies hb
    refine ⟨fun hempty => ?_, State.take removed, exec_takeRequest (s := removed) hr, ?_, fun hwaits => ?_⟩
    · have htake : State.take removed = removed := State.take_of_empty hempty
      rw [hexec, htake]
      exact congrArg _ (State.boundaryReset_waits fun p hp' => nomatch hp.symm.trans hp')
    · have hleft := State.take_leaves (fires := False) removed
      have hboundary : exec .emittedFrameBoundary (State.take removed) = .next (State.endFrame (State.take removed)) :=
        takenWhen_next (hleft.resetN.trans hr) rfl _
      rw [hexec, hboundary, State.endFrame_of_none (hleft.current.trans rfl)]
    · rw [hexec, State.boundaryReset_waits hwaits]
  case served =>
    have hexec := exec_notificationReport hr hc hd hp he
    refine ⟨fun ha hq => ?_, fun ha hq => ?_, fun ha hq => ?_, fun ha hq => ?_⟩
    · have hclass := EventUnit.completeClass_timed hv hs ha
      rw [hexec, EventUnit.notificationComplete_done _ _ (by rw [hclass]; exact hq), hclass]
    · have hclass := EventUnit.completeClass_timed hv hs ha
      rw [hexec, EventUnit.notificationComplete_quiets _ _ (by rw [hclass]; exact hq), hclass]
      rfl
    · have hclass := EventUnit.completeClass_acknowledged hv hs ha
      have hwait : (EventUnit.acknowledge s.events c v).quietWait = [] :=
        List.filter_eq_nil_iff.2 fun d hd => by simpa using hq d hd
      rw [hexec, EventUnit.notificationComplete_done _ _ (by rw [hclass]; exact hwait), hclass]
      refine congrArg (fun x => Host.Outcome.next (ended (EventUnit.test s.engine.address x))) ?_
      calc EventUnit.acknowledge s.events c v
        _ = { EventUnit.acknowledge s.events c v with
              slot := (EventUnit.acknowledge s.events c v).slot
              quietWait := (EventUnit.acknowledge s.events c v).quietWait } := rfl
        _ = _ := by rw [EventUnit.acknowledge_slotOf, hwait]; rfl
    · have hclass := EventUnit.completeClass_acknowledged hv hs ha
      obtain ⟨d, hdmem, hdne⟩ := hq
      have hwait : (EventUnit.acknowledge s.events c v).quietWait ≠ [] :=
        List.ne_nil_of_mem (List.mem_filter.2 ⟨hdmem, by simpa using hdne⟩)
      rw [hexec, EventUnit.notificationComplete_quiets _ _ (by rw [hclass]; exact hwait), hclass]
      rfl
  case stale =>
    have hexec := exec_notificationReport hr hc hd hp he
    have hclass := EventUnit.completeClass_stale hstale
    refine ⟨fun hq => ?_, fun hq => ?_⟩
    · rw [hexec, EventUnit.notificationComplete_done _ _ (by rw [hclass]; exact hq), hclass]
    · rw [hexec, EventUnit.notificationComplete_quiets _ _ (by rw [hclass]; exact hq), hclass]
      rfl

end Sys2Proof.Proofs

/-! SUPPORT. One taking (R136 to R140, R143): what the request queue behind the taken request leaves unchanged in an answer, the
answers of requests that are refused, and the settlement of O47. -/

namespace Sys2Proof.Machine

set_option Elab.async false

/-! ### The queue behind the request that is taken -/

/-- The node with another request queue. -/
abbrev State.queued (s : State) (q : List Request) : State := { s with engine := { s.engine with requests := q } }

/-- An answer at the node with another request queue. -/
abbrev Answer.queued (a : Answer) (q : List Request) : Answer := ⟨a.code, a.contents, State.queued a.after q⟩

section
variable (params : List Octet) (r : Request) (s : State) (q : List Request)

theorem answerIdentify_queued : answerIdentify params (State.queued s q) = (answerIdentify params s).queued q := by
  unfold answerIdentify
  split <;> rfl

theorem answerAssignAddress_queued :
    answerAssignAddress params (State.queued s q) = (answerAssignAddress params s).queued q := by
  unfold answerAssignAddress
  split
  · split <;> rfl
  · rfl

/-- READ_STATUS alone shows the queue (R181): it answers alike only where it is refused. -/
theorem answerReadStatus_queued (h : params ≠ []) :
    answerReadStatus params (State.queued s q) = (answerReadStatus params s).queued q := by
  rw [answerReadStatus, answerReadStatus, if_neg (mt List.isEmpty_iff.1 h), if_neg (mt List.isEmpty_iff.1 h)]
  rfl

theorem answerWriteNodeSetup_queued :
    answerWriteNodeSetup params (State.queued s q) = (answerWriteNodeSetup params s).queued q := by
  unfold answerWriteNodeSetup
  split
  · cases nodeSettingsOf params <;> rfl
  · rfl

theorem answerWriteMap_queued : answerWriteMap params (State.queued s q) = (answerWriteMap params s).queued q := by
  unfold answerWriteMap
  split
  · next first count rest =>
    split
    · split
      · cases entriesOf rest with
        | none => rfl
        | some es => simp only; cases s.mapStore.shadow <;> rfl
      · rfl
    · rfl
  · rfl

theorem answerReadMap_queued : answerReadMap params (State.queued s q) = (answerReadMap params s).queued q := by
  unfold answerReadMap
  split
  · next role first count =>
    simp only
    cases MapStore.roleOf s.mapStore role with
    | none => rfl
    | some letter => simp only; split <;> rfl
  · rfl

theorem answerCopyActive_queued : answerCopyActive params (State.queued s q) = (answerCopyActive params s).queued q := by
  unfold answerCopyActive
  split
  · simp only; cases s.mapStore.shadow <;> rfl
  · rfl

theorem answerCheckMap_queued : answerCheckMap params (State.queued s q) = (answerCheckMap params s).queued q := by
  unfold answerCheckMap
  split
  · simp only
    cases s.mapStore.shadow with
    | pending t => rfl
    | _ => simp only; cases Bank.firstConflict (MapStore.shadowBank s.mapStore) <;> rfl
  · rfl

theorem answerWriteWatch_queued : answerWriteWatch params (State.queued s q) = (answerWriteWatch params s).queued q := by
  unfold answerWriteWatch
  split
  · split
    · next i setup _ =>
      split
      · cases watchSetupOf setup <;> rfl
      · rfl
    · rfl
  · rfl

theorem answerReadWatch_queued : answerReadWatch params (State.queued s q) = (answerReadWatch params s).queued q := by
  unfold answerReadWatch
  split
  · split <;> rfl
  · rfl

theorem answerWriteEventSetup_queued :
    answerWriteEventSetup params (State.queued s q) = (answerWriteEventSetup params s).queued q := by
  unfold answerWriteEventSetup
  split
  · cases orderModeOf (params.getD 22 0#8) <;> rfl
  · rfl

theorem answerReadClass_queued : answerReadClass params (State.queued s q) = (answerReadClass params s).queued q := by
  unfold answerReadClass
  split
  · split <;> rfl
  · rfl

theorem answerDiscardClass_queued :
    answerDiscardClass params (State.queued s q) = (answerDiscardClass params s).queued q := by
  unfold answerDiscardClass
  split
  · split <;> rfl
  · rfl

theorem answerReadCounters_queued :
    answerReadCounters params (State.queued s q) = (answerReadCounters params s).queued q := by
  unfold answerReadCounters
  split
  · next clear => cases clear.getLsbD 0 <;> rfl
  · rfl

theorem answerResetNode_queued : answerResetNode r (State.queued s q) = (answerResetNode r s).queued q := by
  unfold answerResetNode
  split
  · next code _ => cases resetScopeOf code <;> rfl
  · rfl

/-- A switch operation reads and writes the Map Store alone (R57, R58, R61): two nodes with one Map Store answer alike. -/
theorem answerScheduleSwitch_map : ∃ (k : ReplyCode) (contents : List Octet) (m : MapStore),
    ∀ u : State, u.mapStore = s.mapStore → answerScheduleSwitch r u = ⟨k, contents, { u with mapStore := m }⟩ := by
  unfold answerScheduleSwitch
  split
  · cases switchTarget _ _ _ r.superframe with
    | none => exact ⟨_, _, s.mapStore, fun u hu => by rw [← hu]; rfl⟩
    | some t =>
      cases hs : s.mapStore.shadow with
      | checked =>
        cases hr : r.ringTime with
        | false => exact ⟨.noRingTime, [], s.mapStore, fun u hu => by rw [← hu] at hs ⊢; simp only [hs]; rfl⟩
        | true =>
          cases ha : isAhead t r.superframe with
          | true =>
            exact ⟨.ok, octets16 r.superframe ++ octets16 t, { s.mapStore with shadow := .pending t }, fun u hu => by
              rw [← hu] at hs ⊢; simp only [hs, ha, Bool.not_true, Bool.false_eq_true, if_false, if_true]⟩
          | false =>
            exact ⟨.tooLate, octets16 r.superframe ++ octets16 t, s.mapStore, fun u hu => by
              rw [← hu] at hs ⊢; simp only [hs, ha, Bool.not_true, Bool.false_eq_true, if_false]⟩
      | editable => exact ⟨.wrongState, [0x00#8], s.mapStore, fun u hu => by rw [← hu] at hs ⊢; simp only [hs, ShadowState.code]⟩
      | pending t' =>
        exact ⟨.wrongState, 0x02#8 :: octets16 t', s.mapStore, fun u hu => by
          rw [← hu] at hs ⊢; simp only [hs, ShadowState.code]⟩
  · exact ⟨_, _, s.mapStore, fun u hu => by rw [← hu]; rfl⟩

theorem answerCancelSwitch_map : ∃ (k : ReplyCode) (contents : List Octet) (m : MapStore),
    ∀ u : State, u.mapStore = s.mapStore → answerCancelSwitch params u = ⟨k, contents, { u with mapStore := m }⟩ := by
  by_cases hp : params = []
  · subst hp
    cases hs : s.mapStore.shadow with
    | pending t =>
      exact ⟨.ok, octets16 t, { s.mapStore with shadow := .checked }, fun u hu => by
        rw [← hu] at hs ⊢; simp only [answerCancelSwitch, hs, List.isEmpty_nil, if_true]⟩
    | editable =>
      exact ⟨.wrongState, [0x00#8], s.mapStore, fun u hu => by
        rw [← hu] at hs ⊢; simp only [answerCancelSwitch, hs, List.isEmpty_nil, if_true, ShadowState.code]⟩
    | checked =>
      exact ⟨.wrongState, [0x01#8], s.mapStore, fun u hu => by
        rw [← hu] at hs ⊢; simp only [answerCancelSwitch, hs, List.isEmpty_nil, if_true, ShadowState.code]⟩
  · exact ⟨.badLength, [], s.mapStore, fun u hu => by rw [answerCancelSwitch_of_params hp, ← hu]; rfl⟩

/-- The answer of a request that shows nothing of the queue is the same whatever waits behind it (R138, R139). -/
theorem answer_queued (h : operationOf r.packet.operation = some .readStatus → r.packet.params ≠ []) :
    answer r (State.queued s q) = (answer r s).queued q := by
  unfold answer
  split
  case h_1 => rfl
  case h_2 => exact answerIdentify_queued _ _ _
  case h_3 => exact answerAssignAddress_queued _ _ _
  case h_4 hop => exact answerReadStatus_queued _ _ _ (h hop)
  case h_5 => exact answerWriteNodeSetup_queued _ _ _
  case h_6 => exact answerWriteMap_queued _ _ _
  case h_7 => exact answerReadMap_queued _ _ _
  case h_8 => exact answerCopyActive_queued _ _ _
  case h_9 => exact answerCheckMap_queued _ _ _
  case h_10 =>
    obtain ⟨k, contents, m, hm⟩ := answerScheduleSwitch_map r s
    rw [hm s rfl, hm (State.queued s q) rfl]
  case h_11 =>
    obtain ⟨k, contents, m, hm⟩ := answerCancelSwitch_map r.packet.params s
    rw [hm s rfl, hm (State.queued s q) rfl]
  case h_12 => exact answerWriteWatch_queued _ _ _
  case h_13 => exact answerReadWatch_queued _ _ _
  case h_14 => exact answerWriteEventSetup_queued _ _ _
  case h_15 => exact answerReadClass_queued _ _ _
  case h_16 => exact answerDiscardClass_queued _ _ _
  case h_17 => exact answerReadCounters_queued _ _ _
  case h_18 => exact answerResetNode_queued _ _ _

end

/-- Two lists that differ in one place agree at every other. -/
theorem getElem?_append_cons_of_ne {α : Type} {front behind : List α} {x y : α} {i : Nat} (h : i ≠ front.length) :
    (front ++ x :: behind)[i]? = (front ++ y :: behind)[i]? := by
  rw [List.getElem?_append, List.getElem?_append]
  split
  · rfl
  · obtain ⟨j, hj⟩ : ∃ j, i - front.length = j + 1 := ⟨i - front.length - 1, by omega⟩
    rw [hj, List.getElem?_cons_succ, List.getElem?_cons_succ]

/-- The status octets differ with the request queue in octet 30 alone (R181). -/
theorem State.statusOctets_queued (s : State) : ∃ front behind : List Octet, front.length = 30 ∧
    ∀ q, State.statusOctets (State.queued s q) = front ++ octetOf q.length :: behind := by
  obtain ⟨front, behind, heq, hfront, hbehind⟩ : ∃ front behind : State → List Octet,
      (∀ t, State.statusOctets t = front t ++ octetOf t.engine.requests.length :: behind t) ∧
      (∀ q, front (State.queued s q) = front s) ∧ (∀ q, behind (State.queued s q) = behind s) ∧
      ∀ t, (behind t).length = 3 :=
    ⟨fun t => _, fun t => _, fun t => (List.append_assoc _ _ _).trans rfl, fun q => rfl, fun q => rfl, fun t => rfl⟩
  obtain ⟨hbehind, hlength⟩ := hbehind
  refine ⟨front s, behind s, ?_, fun q => by rw [heq, hfront, hbehind]⟩
  have htotal := State.statusOctets_length s
  rw [heq, List.length_append, List.length_cons, hlength] at htotal
  omega

/-! ### The handling of the request that is taken -/

/-- The node after the Event Unit has been told of a taking (R136, R167). -/
abbrev State.told (u : State) : State := { u with events := EventUnit.requestTaken u.engine.address u.events }

section
variable {s : State} {r : Request} {rest : List Request}

theorem exec_takes (hr : s.resetN = true) (hq : s.engine.requests = r :: rest) (hp : s.engine.resetPending = none)
    (hl : r.cls = .addressed → s.engine.replies.length < 4) :
    exec .takeRequest s = .next (State.handle (State.queued s rest) r) := by
  rw [exec_takeRequest hr, State.take]
  simp only [hq, (Engine.mayTake_iff s.engine r).2 ⟨hp, hl⟩, if_true]

theorem State.handle_addressed (hc : r.cls = .addressed) : State.handle s r = State.told (State.handleAddressed s r) := by
  simp only [State.handle, hc]

theorem State.handle_broadcast {n : Nat} {f : Bool} (hc : r.cls = .broadcast n f) :
    State.handle s r = State.told (State.handleBroadcast s r) := by
  simp only [State.handle, hc]

theorem State.handleAddressed_cached {p : Packet} (hp : s.engine.replyCache = some p)
    (hs : p.sequence = r.packet.sequence) : State.handleAddressed s r = State.answerFromCache s p := by
  simp only [State.handleAddressed, hp, hs, if_true]

theorem State.handleAddressed_misses (h : Engine.cacheMisses s.engine r.packet.sequence = true) :
    State.handleAddressed s r = State.replied r (answer r s) := by
  unfold State.handleAddressed
  split
  · next p hp =>
    have hne : p.sequence ≠ r.packet.sequence := by simpa [Engine.cacheMisses, hp] using h
    exact if_neg hne
  · rfl

theorem State.handleBroadcast_misses (h : s.engine.broadcastCache ≠ some r.packet.sequence) :
    State.handleBroadcast s r =
      (let a := answer r { s with engine := { s.engine with broadcastCache := some r.packet.sequence } }
       State.recordRefusal a.after r a.code) :=
  if_neg h

/-- A refusal that is no switch operation's is not recorded (R143). -/
theorem State.recordRefusal_of_other (k : ReplyCode) (h : operationOf r.packet.operation ≠ some .scheduleSwitch)
    (h' : operationOf r.packet.operation ≠ some .cancelSwitch) : State.recordRefusal s r k = s :=
  if_neg fun hk => hk.2.elim h h'

theorem isResetReply_of_refused {k : ReplyCode} (hk : k ≠ .ok) : isResetReply r (Answer.refuse s k) = false := by
  simp [isResetReply, Answer.refuse, hk]

/-- The arrival facts that a request brings, as a delivery in any form gives them (R56). -/
abbrev Request.facts (r : Request) (form : DestinationForm) : Delivery :=
  { form := form, source := r.packet.source, sequence := r.packet.sequence, superframe := r.superframe, ringTime := r.ringTime }

/-- A taken addressed request leaves what its delivery as a command leaves (R140). -/
theorem State.told_replied {op : Operation} (a : Answer) (form : DestinationForm) (hop : r.packet.operation = Operation.number op) :
    State.told (State.replied r a) = State.answered a.after (Request.facts r form) op a.code a.contents
      (decide (op = .resetNode) && decide (a.code = .ok)) := by
  simp only [State.replied, State.answered, State.appendReply, isResetReply, replyTo, replyPacket, State.ownStation, hopOf, hop,
    operationOf_number, Option.some.injEq]
  rfl

theorem exec_takes_addressed {a : Answer} (hr : s.resetN = true) (hq : s.engine.requests = r :: rest)
    (hp : s.engine.resetPending = none) (hc : r.cls = .addressed) (hl : s.engine.replies.length < 4)
    (hm : Engine.cacheMisses s.engine r.packet.sequence = true) (ha : answer r (State.queued s rest) = a) :
    exec .takeRequest s = .next (State.told (State.replied r a)) := by
  rw [exec_takes hr hq hp fun _ => hl, State.handle_addressed hc, State.handleAddressed_misses (s := State.queued s rest) hm, ha]

theorem exec_takes_of_broadcast {n : Nat} {f : Bool} (hr : s.resetN = true) (hq : s.engine.requests = r :: rest)
    (hp : s.engine.resetPending = none) (hc : r.cls = .broadcast n f) :
    exec .takeRequest s = .next (State.told (State.handleBroadcast (State.queued s rest) r)) := by
  have hclass : ¬r.cls = .addressed := by rw [hc]; exact RequestClass.noConfusion
  rw [exec_takes hr hq hp fun h => absurd h hclass, State.handle_broadcast (s := State.queued s rest) hc]

theorem exec_takes_broadcast {k : ReplyCode} {contents : List Octet} {u : State} {n : Nat} {f : Bool} (hr : s.resetN = true)
    (hq : s.engine.requests = r :: rest) (hp : s.engine.resetPending = none) (hc : r.cls = .broadcast n f)
    (hm : s.engine.broadcastCache ≠ some r.packet.sequence)
    (ha : answer r { s with engine := { s.engine with requests := rest, broadcastCache := some r.packet.sequence } } =
      ⟨k, contents, u⟩) :
    exec .takeRequest s = .next (State.told (State.recordRefusal u r k)) := by
  rw [exec_takes_of_broadcast hr hq hp hc, State.handleBroadcast_misses (s := State.queued s rest) hm]
  exact congrArg (fun a : Answer => Host.Outcome.next (State.told (State.recordRefusal a.after r a.code))) ha

end

/-! ### A switch operation by broadcast (R68) -/

/-- A refusal that is recorded is a post of the switch operation and the code (R68). -/
theorem State.recordRefusal_eq (s : State) (r : Request) (k : ReplyCode) :
    State.recordRefusal s r k = { s with
      events :=
        if k ≠ .ok ∧ (operationOf r.packet.operation = some .scheduleSwitch ∨
            operationOf r.packet.operation = some .cancelSwitch) then
          EventUnit.post s.aligner.flywheel.superframe s.engine.address .switchRefused none
            (some (r.packet.operation ++ ReplyCode.octet k ++ 0#8)) s.events
        else s.events } := by
  unfold State.recordRefusal
  split <;> rfl

theorem State.deliver_recorded {s u : State} {d : Delivery} {op : Operation} {params contents : List Octet} {k : ReplyCode}
    (h : State.BroadcastReady s d) (hp : params.length ≤ 56) (ho : Operation.executedWhenBroadcast op = true)
    (ha : answer (State.broadcastRequest s d op params) (State.cached s d.sequence) = ⟨k, contents, u⟩) :
    State.deliver s d op params = State.told (State.recordRefusal u (State.broadcastRequest s d op params) k) := by
  rw [State.deliver_taken h hp ho]
  simp only [ha]

/-- What an answer depends on: the operation, the parameters and the arrival facts, and for a RESET_NODE the class. -/
theorem answer_congr {r r' : Request} (hop : r'.packet.operation = r.packet.operation)
    (hparams : r'.packet.params = r.packet.params) (hsf : r'.superframe = r.superframe) (hrt : r'.ringTime = r.ringTime)
    (hcls : operationOf r.packet.operation = some .resetNode → r'.cls = r.cls) (s : State) : answer r' s = answer r s := by
  have hschedule : answerScheduleSwitch r' s = answerScheduleSwitch r s := by
    simp only [answerScheduleSwitch, hparams, hsf, hrt]
  by_cases hreset : operationOf r.packet.operation = some .resetNode
  · have hreset' : operationOf r'.packet.operation = some .resetNode := by rw [hop, hreset]
    simp only [answer, hreset, hreset', answerResetNode, hparams, hcls hreset]
  · unfold answer
    rw [hop, hparams, hschedule]
    split
    case h_18 h => exact absurd h hreset
    all_goals rfl

/-- A switch operation reads and writes the Map Store alone, whoever brings it. -/
theorem answer_map (r : Request) (s : State)
    (h : operationOf r.packet.operation = some .scheduleSwitch ∨ operationOf r.packet.operation = some .cancelSwitch) :
    ∃ (k : ReplyCode) (contents : List Octet) (m : MapStore),
      ∀ u : State, u.mapStore = s.mapStore → answer r u = ⟨k, contents, { u with mapStore := m }⟩ := by
  rcases h with h | h
  · obtain ⟨k, contents, m, hm⟩ := answerScheduleSwitch_map r s
    exact ⟨k, contents, m, fun u hu => by simp only [answer, h]; exact hm u hu⟩
  · obtain ⟨k, contents, m, hm⟩ := answerCancelSwitch_map r.packet.params s
    exact ⟨k, contents, m, fun u hu => by simp only [answer, h]; exact hm u hu⟩

/-! ### Requests that are refused (R138, spec/12 12.8) -/

theorem operationOf_none {o : Octet} (h : o = 0#8 ∨ 0x12 ≤ o.toNat) : operationOf o = none := by
  unfold operationOf
  split
  case h_18 => rfl
  all_goals (next ho => rcases h with rfl | h <;> simp_all)

theorem resetScopeOf_none {code : Octet} (h : 2 ≤ code.toNat) : resetScopeOf code = none := by
  unfold resetScopeOf
  split
  · omega
  · omega
  · rfl

theorem answerReadCounters_of_length {params : List Octet} (h : params.length ≠ 1) (s : State) :
    answerReadCounters params s = Answer.refuse s .badLength := by
  unfold answerReadCounters
  split
  · exact absurd rfl h
  · rfl

theorem answerResetNode_of_length {r : Request} (h : r.packet.params.length ≠ 1) (s : State) :
    answerResetNode r s = Answer.refuse s .badLength := by
  unfold answerResetNode
  split
  · next hp => rw [hp] at h; exact absurd rfl h
  · rfl

theorem answerResetNode_of_scope {r : Request} {code : Octet} (hp : r.packet.params = [code]) (h : 2 ≤ code.toNat) (s : State) :
    answerResetNode r s = Answer.refuse s .badParameter := by
  simp only [answerResetNode, hp, resetScopeOf_none h]

end Sys2Proof.Machine

namespace Sys2Proof.Proofs

open Sys2Proof Sys2Proof.Machine

set_option Elab.async false

/-- Settles O47: the class and the caches decide what a taking comes to; an executed request leaves what its command leaves at an
empty queue, as its answer does not look behind it. -/
theorem requestIsTaken : Obligations.RequestIsTaken := by
  intro s r rest hr hq
  refine ⟨fun hp => (exec_takeRequest hr).trans (congrArg _ (State.take_pending s hp)), fun hp => ?_⟩
  intro told
  refine ⟨fun p hc hl hcache hs => ?cached, fun hc hl hm => ?refused, fun n f hc hcache => ?repeated,
    fun n f hc hcache hop hscope => ?idle, fun hc hl => ?full, ?_⟩
  case cached =>
    rw [exec_takes hr hq hp fun _ => hl, State.handle_addressed hc, State.handleAddressed_cached (s := State.queued s rest) hcache hs]
    cases hany : s.engine.replies.any (·.ofCache) <;> simp only [State.answerFromCache, hany] <;> rfl
  case refused =>
    intro refused
    have hrefused (k : ReplyCode) (hk : k ≠ .ok) (ha : ∀ u, answer r u = Answer.refuse u k) : refused (ReplyCode.octet k) := by
      refine (exec_takes_addressed hr hq hp hc hl hm (ha _)).trans ?_
      rw [State.replied, isResetReply_of_refused hk]
      rfl
    refine ⟨fun hop => hrefused .unknownOperation (by decide) fun u => ?_,
      fun hop hlen => hrefused .badLength (by decide) fun u => ?_,
      fun code hop hparams hcode => hrefused .badParameter (by decide) fun u => ?_⟩
    · simp only [answer, operationOf_none hop]
    · rcases hop with hop | hop
      · have hread : operationOf r.packet.operation = some .readCounters := by rw [hop]; rfl
        simp only [answer, hread, answerReadCounters_of_length hlen]
      · have hreset : operationOf r.packet.operation = some .resetNode := by rw [hop]; rfl
        simp only [answer, hreset, answerResetNode_of_length hlen]
    · have hreset : operationOf r.packet.operation = some .resetNode := by rw [hop]; rfl
      simp only [answer, hreset, answerResetNode_of_scope hparams hcode]
  case repeated =>
    have hcached : State.handleBroadcast (State.queued s rest) r = State.queued s rest := if_pos hcache
    rw [exec_takes_of_broadcast hr hq hp hc, hcached]
  case idle =>
    have hreset : operationOf r.packet.operation = some .resetNode := by rw [hop]; rfl
    obtain ⟨k, ha⟩ : ∃ k, ∀ u, answer r u = Answer.refuse u k := by
      by_cases hlen : r.packet.params.length = 1
      · obtain ⟨code, hparams⟩ := List.length_eq_one_iff.1 hlen
        exact ⟨.badParameter, fun u => by simp only [answer, hreset, answerResetNode_of_scope hparams (hscope code hparams)]⟩
      · exact ⟨.badLength, fun u => by simp only [answer, hreset, answerResetNode_of_length hlen]⟩
    rw [exec_takes_broadcast hr hq hp hc hcache (ha _),
      State.recordRefusal_of_other _ (by rw [hreset]; decide) (by rw [hreset]; decide)]
  case full =>
    rw [exec_takeRequest hr, State.take_blocked hq (.inr ⟨hc, hl⟩)]
  intro queued facts hfit
  refine ⟨fun op form c hc hl hm hop hform hconsumed hcommand => ?_, fun n f hc hcache => ⟨fun op c hswitch hop hcommand => ?_,
    fun code scope hop hparams hscope => ?_⟩⟩
  · have hdelivered := deliveredBy_requestCommand hcommand
    have hready : State.AddressedReady (queued s []) (facts form) := ⟨hr, hform, hconsumed, rfl, hp, hl, hm⟩
    refine ⟨fun hshown => ?_, fun hstatus hparams => ?_⟩
    · have hanswer (q : List Request) : answer r (State.queued s q) = (answer r s).queued q :=
        answer_queued r s q fun hstatus => hshown.resolve_left fun hne => hne (by
          rw [hop, operationOf_number] at hstatus; exact Option.some.inj hstatus)
      have hcommanded (dest : Octet) :
          answer (Delivery.request (facts form) dest .addressed op r.packet.params) (queued s []) = (answer r s).queued [] :=
        (answer_congr (r := r) (r' := Delivery.request (facts form) dest .addressed op r.packet.params) hop.symm rfl rfl rfl (fun _ => hc.symm) _).trans (hanswer [])
      refine ⟨_, (exec_of_deliveredBy hdelivered (queued s [])).trans
        (congrArg _ (State.deliver_answered (queued s []) (facts form) op _ _ hready hfit hcommanded)), ?_⟩
      exact (exec_takes_addressed hr hq hp hc hl hm (hanswer rest)).trans
        (congrArg Host.Outcome.next (State.told_replied ((answer r s).queued rest) form hop))
    · subst hstatus
      obtain ⟨front, behind, hfront, hocts⟩ := State.statusOctets_queued s
      have hanswer (q : List Request) : answer r (State.queued s q) = ⟨.ok, State.statusOctets (State.queued s q), State.queued s q⟩ := by
        simp only [answer, hop, operationOf_number, answerReadStatus, hparams, List.isEmpty_nil, if_true]
      have hcommanded (dest : Octet) :
          answer (Delivery.request (facts form) dest .addressed .readStatus r.packet.params) (queued s []) =
            ⟨.ok, State.statusOctets (State.queued s []), State.queued s []⟩ :=
        (answer_congr (r := r) (r' := Delivery.request (facts form) dest .addressed .readStatus r.packet.params) hop.symm rfl rfl rfl (fun _ => hc.symm) _).trans (hanswer [])
      refine ⟨State.statusOctets (queued s rest), _, ?_, exec_answers hdelivered hready hfit (by decide) hcommanded, ?_, fun i hi => ?_⟩
      · exact (exec_takes_addressed hr hq hp hc hl hm (hanswer rest)).trans
          (congrArg Host.Outcome.next (State.told_replied _ form hop))
      · rw [hocts, List.getElem?_append_right (Nat.le_of_eq hfront), hfront]
        rfl
      · rw [hocts, hocts]
        exact getElem?_append_cons_of_ne (hfront ▸ hi)
  · have hexecuted : Operation.executedWhenBroadcast op = true := by rcases hswitch with rfl | rfl <;> rfl
    have hoperation : operationOf r.packet.operation = some .scheduleSwitch ∨ operationOf r.packet.operation = some .cancelSwitch := by
      rw [hop, operationOf_number]; exact hswitch.imp (congrArg some) (congrArg some)
    have hready : State.BroadcastReady (queued s []) (facts .broadcast) := ⟨hr, rfl, rfl, hp, hcache⟩
    obtain ⟨k, contents, m, hm⟩ := answer_map r s hoperation
    have hcommanded : answer (State.broadcastRequest (queued s []) (facts .broadcast) op r.packet.params)
        (State.cached (queued s []) r.packet.sequence) =
          ⟨k, contents, { State.cached (queued s []) r.packet.sequence with mapStore := m }⟩ :=
      (answer_congr (r := r) (r' := State.broadcastRequest _ _ op _) hop.symm rfl rfl rfl (fun hreset => by
        rw [hop, operationOf_number] at hreset; rcases hswitch with rfl | rfl <;> cases hreset) _).trans (hm _ rfl)
    refine ⟨_, (exec_of_deliveredBy (deliveredBy_requestCommand hcommand) (queued s [])).trans
      (congrArg _ (State.deliver_recorded hready hfit hexecuted hcommanded)), ?_⟩
    rw [exec_takes_broadcast hr hq hp hc hcache (hm _ rfl), State.recordRefusal_eq, State.recordRefusal_eq, hop]
    rfl
  · have hreset : operationOf r.packet.operation = some .resetNode := by rw [hop]; rfl
    have hmoment : RequestClass.resetMoment r.cls = if f then .boundary else .endForwarded n := by rw [hc]; rfl
    have hcode : resetScopeOf code = some scope := by rcases hscope with ⟨rfl, rfl⟩ | ⟨rfl, rfl⟩ <;> rfl
    rw [exec_takes_broadcast hr hq hp hc hcache (k := .ok) (contents := [code])
      (u := { s with engine := { s.engine with
        requests := rest, broadcastCache := some r.packet.sequence
        resetPending := some { scope := scope, moment := if f then .boundary else .endForwarded n } } })
      (by simp only [answer, hreset, answerResetNode, hparams, hcode, hmoment]),
      State.recordRefusal_of_other _ (by rw [hreset]; decide) (by rw [hreset]; decide)]

end Sys2Proof.Proofs

/-! SUPPORT. A bad frame in ALIGNED (R19, R20, R23, R24, R110), and the settlement of O11 and O13. -/

namespace Sys2Proof.Machine

set_option Elab.async false

/-! ### The parts of a classified frame that do not depend on its class -/

/-- The step of the flywheel, and the end of a quality window (R22, R23). -/
theorem Aligner.stepped_eq (a : Aligner) :
    let n := successor a.flywheel
    let closes : Bool := n.index = 0#4 ∧ n.superframe.toNat % 64 = 0
    Aligner.stepped a = { a with
      flywheel := n
      windowCount := if closes then 0 else a.windowCount
      windowReported := if closes then false else a.windowReported } := by
  intro n closes
  have hcloses : (FrameNumber.isStart n && decide (n.superframe.toNat % 64 = 0)) = closes := by
    simp only [FrameNumber.isStart, closes, Bool.decide_and]
  unfold Aligner.stepped Aligner.closeWindow
  simp only [n] at hcloses
  rw [hcloses]
  cases closes <;> rfl

/-- Ring-out once the copy of a classified frame is due, unless the frame is one of the gap of R31 (R6, R9). -/
def State.withCopy (s : State) (f : Frame) (position : Option (BitVec 6)) (sound : Bool) : RingOut :=
  { s.ringOut with
    copies := if s.ringOut.copyArriving then
        s.ringOut.copies ++
          [{ number := successor s.aligner.flywheel, hop := position.getD 63#6, uf := f.uf
             em := decide (f.check ≠ checkOf (Frame.covered f)) || f.em, payload := f.payload, sound := sound
             statusBefore := [] }]
      else s.ringOut.copies
    copyArriving := !(s.ringOut.current.any (·.substitute)) }

theorem copyEm_eq (f : Frame) : copyEm f = (decide (f.check ≠ checkOf (Frame.covered f)) || f.em) := by
  have h : Frame.checkPasses f = true ↔ f.check = checkOf (Frame.covered f) := Frame.checkPasses_iff f
  unfold copyEm
  by_cases hc : f.check = checkOf (Frame.covered f)
  · simp [hc, h.2 hc]
  · simp [hc, mt h.1 hc]

/-- The copy is queued as the frame left the flywheel and the position. -/
theorem State.queueCopy_eq {s t : State} {f : Frame} {c : FrameClass} {p : Option (BitVec 6)} (hro : t.ringOut = s.ringOut)
    (hn : t.aligner.flywheel = successor s.aligner.flywheel) (hp : t.aligner.position = p) :
    State.queueCopy t f c = { t with ringOut := State.withCopy s f p (ringTimeValid c f.uf) } := by
  rw [State.queueCopy, State.substituteInEmission_eq, State.copyOf, copyEm_eq, hn, hp, hro]
  rfl

theorem State.stepFlywheel_settled (s : State) :
    State.stepFlywheel (State.settleChoice s) = { State.settleChoice s with aligner := Aligner.stepped s.aligner } := by
  rw [State.settleChoice_frame]
  rfl

/-- A frame without ring time reaches the Service Channel Unit alone, in whatever order the blocks take it (R28). -/
theorem State.handOn_untimed (s : State) (copied good : Bool) (f : Frame) :
    State.handOn s copied good false f = State.serveFrame good false f (State.draw s) := by
  have hfire (u : State) : State.fireSwitch false u = u := State.fireSwitch_quiet false u (.inl rfl)
  have hwatch (u : State) : State.watchFrame copied false f u = u := State.watchFrame_quiet copied false f u (.inl rfl)
  simp only [State.handOn, hfire, hwatch]
  split <;> rfl

/-! ### What a bad frame counts (R19) -/

/-- The counter of the first failing test of a bad frame (R19). -/
def Frame.failing (f : Frame) : CounterName :=
  if f.sync ≠ 0x9C7#12 then .syncErrors
  else if f.check ≠ checkOf (Frame.covered f) then .checkErrors
  else .sequenceErrors

theorem Frame.failing_ne (f : Frame) : Frame.failing f ≠ .serviceAborts ∧ Frame.failing f ≠ .alignLosses := by
  unfold Frame.failing
  split
  · decide
  · split <;> decide

theorem FrameClass.counter_of_bad {f : Frame} {n : FrameNumber} (h : frameClass f n ≠ .good) :
    FrameClass.counter (frameClass f n) = some (Frame.failing f) := by
  have hcheck := Frame.checkPasses_iff f
  unfold frameClass at h ⊢
  unfold Frame.failing
  by_cases hs : f.sync = 0x9C7#12
  · have hfound : Frame.syncFound f = true := by simp [Frame.syncFound, syncWord, hs]
    by_cases hc : f.check = checkOf (Frame.covered f)
    · simp only [hfound, hcheck.2 hc, Bool.not_true, Bool.false_eq_true, if_false] at h ⊢
      by_cases hn : f.number = n
      · exact absurd (if_neg (not_not.2 hn)) h
      · rw [if_pos hn, if_neg (not_not.2 hs), if_neg (not_not.2 hc)]; rfl
    · have hfails : Frame.checkPasses f = false := Bool.eq_false_iff.2 (mt hcheck.1 hc)
      simp only [hfound, hfails, Bool.not_true, Bool.not_false, Bool.false_eq_true, if_false, if_true]
      rw [if_neg (not_not.2 hs), if_pos hc]; rfl
  · have hlost : Frame.syncFound f = false := by simp [Frame.syncFound, syncWord, hs]
    simp only [hlost, Bool.not_false, if_true]
    rw [if_pos hs]; rfl

/-- The aligner once it has counted a bad frame (R19, R23). -/
def Aligner.counted (a : Aligner) : Aligner :=
  { Aligner.stepped a with consecutiveBad := a.consecutiveBad + 1, windowCount := (Aligner.stepped a).windowCount + 1 }

/-- The node once the aligner has taken a bad frame for itself (R19, R23). -/
theorem State.taken_of_bad {s : State} {f : Frame} (h : State.classOf s f ≠ .good) :
    State.taken s f = { State.settleChoice s with
      aligner := Aligner.counted s.aligner
      ringOut := State.withCopy s f s.aligner.position false
      counters := (State.count s (Frame.failing f)).counters } := by
  have hsettled := State.settleChoice_frame s
  have hconsecutive : (Aligner.stepped s.aligner).consecutiveBad = s.aligner.consecutiveBad := by rw [Aligner.stepped_eq]
  have hposition : (Aligner.stepped s.aligner).position = s.aligner.position := by rw [Aligner.stepped_eq]
  have hsound : ringTimeValid (State.classOf s f) f.uf = false :=
    Bool.eq_false_iff.2 fun hv => h ((ringTimeValid_iff _ _).1 hv).1
  have hbad : State.takeBad (State.stepFlywheel (State.settleChoice s)) (State.classOf s f) = { State.settleChoice s with
      aligner := Aligner.counted s.aligner, counters := (State.count s (Frame.failing f)).counters } := by
    rw [State.takeBad, State.countClass, State.classOf, FrameClass.counter_of_bad h, State.stepFlywheel_settled, hsettled,
      Aligner.counted, ← hconsecutive]
    rfl
  unfold State.taken State.takeClassified
  rw [if_neg h, hbad, State.queueCopy_eq (s := s) (by rw [hsettled]) (Aligner.closeWindow_flywheel _) hposition, hsound]

/-- The node once a bad frame has been handed on, which aborts a packet in progress on receive (R110). -/
theorem State.handedOn_of_bad {s : State} {f : Frame} (h : State.classOf s f ≠ .good) :
    State.handedOn s f = State.abortCounted (State.draw (State.taken s f)) := by
  have huntimed : State.ringTimeOf s f = false := Bool.eq_false_iff.2 fun hv => h ((ringTimeValid_iff _ _).1 hv).1
  rw [State.handedOn, huntimed, State.handOn_untimed, State.serveFrame, decide_eq_false h]
  rfl

theorem State.handedOn_of_bad_eq {s : State} {f : Frame} (h : State.classOf s f ≠ .good) :
    State.handedOn s f = { s with
      aligner := Aligner.counted s.aligner
      ringOut := State.withCopy s f s.aligner.position false
      service := (State.abortReceive (State.settleChoice s)).service
      counters := (State.handedOn s f).counters
      choices := s.choices + 1 } := by
  have hservice : (State.handedOn s f).service = (State.abortReceive (State.settleChoice s)).service := by
    rw [State.handedOn_of_bad h, State.abortCounted_service]
    refine State.abortReceive_service_congr ?_
    rw [State.taken_of_bad h]; rfl
  rw [← hservice, State.handedOn_of_bad h, State.abortCounted_frame, State.taken_of_bad h, State.settleChoice_frame]
  rfl

theorem State.handedOn_counter {s : State} {f : Frame} (h : State.classOf s f ≠ .good) (k : CounterName) :
    (State.handedOn s f).counters[k.index] =
      if k = Frame.failing f ∨ (k = .serviceAborts ∧ s.service.receiving ≠ .nothing) then raise16 s.counters[k.index]
      else s.counters[k.index] := by
  have hfailing := (Frame.failing_ne f).1
  have htaken : (State.draw (State.taken s f)).counters = (State.count s (Frame.failing f)).counters := by
    rw [State.taken_of_bad h]; rfl
  have hreceiving : (State.draw (State.taken s f)).service.receiving = s.service.receiving := by
    rw [State.taken_of_bad h, State.settleChoice_frame]; rfl
  rw [State.handedOn_of_bad h, State.abortCounted_counter, htaken, hreceiving, State.count_counter]
  by_cases hk : k = Frame.failing f
  · rw [if_neg fun ha => hfailing (hk.symm.trans ha.1), if_pos hk, if_pos (.inl hk)]
  · simp only [hk, if_false, false_or]

/-! ### The judgement of a bad frame (R20, R24) -/

theorem State.qualityReported_eq (s : State) :
    State.qualityReported s = { s with
      aligner := { s.aligner with windowReported := s.aligner.windowReported || Aligner.reachesThreshold s.aligner }
      events := if Aligner.reachesThreshold s.aligner then
          EventUnit.post s.aligner.flywheel.superframe s.engine.address .qualityLow none none s.events
        else s.events } := by
  unfold State.qualityReported
  cases Aligner.reachesThreshold s.aligner
  · simp
  · simp only [if_true, Bool.or_true]; rfl

theorem State.abortCounted_of_idle {s : State} (h : s.service.receiving = .nothing) : State.abortCounted s = s :=
  if_neg (mt (ServiceChannel.inPacket_iff _).1 (not_not.2 h))

/-- Once the packet in progress is aborted, leaving ALIGNED finds none (R113). -/
theorem State.leaveAligned_of_idle {s : State} (h : s.service.receiving = .nothing) (st : AlignState) :
    State.leaveAligned s st = { s with
      aligner := Aligner.countsCleared s.aligner st
      ringOut := { s.ringOut with copyArriving := false }
      events := EventUnit.post s.aligner.flywheel.superframe s.engine.address .alignLost none none s.events
      counters := (State.count s .alignLosses).counters } := by
  unfold State.leaveAligned
  refine (State.abortCounted_of_idle ?_).trans rfl
  exact h

/-- The whole judgement, where no packet is in progress (R20, R24). -/
theorem State.judgeQuality_of_idle {s : State} {low ends : Bool} (h : s.service.receiving = .nothing)
    (hlow : Aligner.reachesThreshold s.aligner = low)
    (hends : (decide (3 ≤ s.aligner.consecutiveBad) || (low && s.aligner.forcedRehunt)) = ends) :
    let sf := s.aligner.flywheel.superframe
    let a := { s.aligner with windowReported := s.aligner.windowReported || low }
    let posted := if low then EventUnit.post sf s.engine.address .qualityLow none none s.events else s.events
    State.judgeQuality s = { s with
      aligner := if ends then Aligner.countsCleared a .hunt else a
      ringOut := { s.ringOut with copyArriving := !ends && s.ringOut.copyArriving }
      events := if ends then EventUnit.post sf s.engine.address .alignLost none none posted else posted
      counters := if ends then (State.count s .alignLosses).counters else s.counters } := by
  intro sf a posted
  have hreported : State.qualityReported s = { s with aligner := a, events := posted } := by
    rw [State.qualityReported_eq, hlow]
  rw [State.judgeQuality_eq, hreported, hlow]
  show (if (decide (3 ≤ s.aligner.consecutiveBad) || (low && s.aligner.forcedRehunt)) = true then _ else _) = _
  rw [hends]
  cases ends
  · rfl
  · refine (if_pos rfl).trans ((State.leaveAligned_of_idle ?_ .hunt).trans rfl)
    exact h

/-- No judgement moves the flywheel (R22). -/
theorem State.judgeQuality_flywheel (s : State) : (State.judgeQuality s).aligner.flywheel = s.aligner.flywheel := by
  have hreported : (State.qualityReported s).aligner.flywheel = s.aligner.flywheel := by rw [State.qualityReported_eq]
  rw [State.judgeQuality_eq]
  split
  · rw [State.leaveAligned_frame]; exact hreported
  · exact hreported

/-- A classified frame steps the flywheel once, whatever its class (R22). -/
theorem State.classify_flywheel (s : State) (f : Frame) :
    (State.classify s f).aligner.flywheel = successor s.aligner.flywheel := by
  have hhanded : (State.handedOn s f).aligner.flywheel = successor s.aligner.flywheel := by
    rw [(State.handedOn_leaves s f).aligner]; exact State.taken_flywheel s f
  rw [State.classify_eq]
  split
  · exact hhanded
  · rw [State.judgeQuality_flywheel, hhanded]

/-- The bits that are missing at the end of a frame read as 0 (R13). -/
theorem Frame.ofBits_padded {bs : List Bool} (h : bs.length < 1240) :
    Frame.ofBits (bs ++ List.replicate (1240 - bs.length) false) = Frame.ofBits bs := by
  have hlength : (bs ++ List.replicate (1240 - bs.length) false).length = 1240 := by
    rw [List.length_append, List.length_replicate]; omega
  unfold Frame.ofBits
  rw [hlength, Nat.sub_self, List.replicate_zero, List.append_nil]

end Sys2Proof.Machine

namespace Sys2Proof.Proofs

open Sys2Proof Sys2Proof.Machine

set_option Elab.async false

/-- Settles O11: a bad frame reaches the Service Channel Unit alone, and its judgement adds the report of a low quality and the
end of alignment to what it has counted. -/
theorem badFrameIsCounted : Obligations.BadFrameIsCounted := by
  intro s f hr ha n closes counted reported low ends failing lowPosted hfails
  have hbad : State.classOf s f ≠ .good := fun hgood => by
    obtain ⟨hs, hc, hn⟩ := (frameClass_good_iff f _).1 hgood
    rcases hfails with h | h | h
    · exact h hs
    · exact h hc
    · exact h hn
  have hexec : exec (.frameClassified f) s = .next (State.classify s f) :=
    takenWhen_next hr (by rw [ha]; rfl) _
  have hhanded := State.handedOn_of_bad_eq hbad
  have hcounted : Aligner.counted s.aligner = { s.aligner with
      flywheel := n, consecutiveBad := s.aligner.consecutiveBad + 1, windowCount := counted, windowReported := reported } := by
    rw [Aligner.counted, Aligner.stepped_eq]
  rw [hcounted] at hhanded
  have hidle : (State.handedOn s f).service.receiving = .nothing := by rw [hhanded]; exact State.abortReceive_receiving _
  have hlow : Aligner.reachesThreshold (State.handedOn s f).aligner = low := by
    rw [hhanded]; simp [Aligner.reachesThreshold, low, Bool.and_assoc]
  have hends : (decide (3 ≤ (State.handedOn s f).aligner.consecutiveBad) ||
      (low && (State.handedOn s f).aligner.forcedRehunt)) = ends := by
    rw [hhanded]; simp only [ends, Bool.decide_or, Bool.decide_and, Bool.decide_eq_true]
  have hjudged := State.judgeQuality_of_idle hidle hlow hends
  refine ⟨State.settleChoice s, _, State.settleChoice_settled s, hexec, ?frame, ?counters⟩ <;>
    rw [State.classify_eq, if_neg hbad, hjudged]
  case frame =>
    rw [hhanded, State.settleChoice_frame]
    cases ends <;> rfl
  case counters =>
    intro k
    have hother := (Frame.failing_ne f).2
    show (if ends then (State.count (State.handedOn s f) .alignLosses).counters else (State.handedOn s f).counters)[k.index] =
      if k = Frame.failing f ∨ _ ∨ _ then _ else _
    cases hended : ends with
    | true =>
      rw [if_pos rfl, State.count_counter, State.handedOn_counter hbad k]
      by_cases hk : k = .alignLosses
      · subst hk; simp [hother.symm]
      · simp [hk]
    | false =>
      rw [if_neg Bool.false_ne_true, State.handedOn_counter hbad k]
      simp

/-- Settles O13: the frame due without a clock is the padded one, and of no bits at all it fails SYNC. -/
theorem missingClockEndsTheFrame : Obligations.MissingClockEndsTheFrame := by
  intro s received hr ha hshort
  have hdue : exec (.frameDueWithoutClock received) s = .next (State.classify s (Frame.ofBits received)) :=
    takenWhen_next hr (by rw [ha]; rfl) _
  have hframe (f : Frame) : exec (.frameClassified f) s = .next (State.classify s f) :=
    takenWhen_next hr (by rw [ha]; rfl) _
  refine ⟨⟨_, hdue, State.classify_flywheel s _, fun hnone => ?_⟩, fun f hf => ?_⟩
  · subst hnone
    have hsync : (Frame.ofBits []).sync ≠ 0x9C7#12 := by decide
    obtain ⟨u, t, -, hexec, -, hcounters⟩ := badFrameIsCounted s (Frame.ofBits []) hr ha (.inl hsync)
    obtain rfl := Host.Outcome.next.inj ((hframe _).symm.trans hexec)
    rw [hcounters, if_pos (.inl (if_pos hsync).symm)]
  · rw [hdue, hframe, ← Frame.ofBits_padded hshort, ← hf, Frame.ofBits_bits]

end Sys2Proof.Proofs

/-! SUPPORT. A good frame in ALIGNED (R19, R22, R23, R26 to R28, R45, R62 to R66, R91 to R100): what it teaches, what the Map Store
and the Watch Unit make of it, and the settlement of O12, O14, O16 and O17. -/

namespace Sys2Proof.Machine

set_option Elab.async false

/-! ### What a good frame teaches (R26, R27) -/

theorem State.updateLastUf_rises (s : State) :
    State.updateLastUf s true = { s with
      aligner := { s.aligner with lastUf := true }
      events :=
        if s.aligner.lastUf then s.events
        else EventUnit.post s.aligner.flywheel.superframe s.engine.address .upstreamFault none none s.events } := by
  unfold State.updateLastUf
  by_cases h : s.aligner.lastUf = true
  · rw [if_pos h, if_pos h, ← h]
  · rw [if_neg h, if_neg h]; rfl

theorem State.updateLastUf_falls (s : State) :
    State.updateLastUf s false = { s with
      aligner := { s.aligner with lastUf := false }
      events :=
        if s.aligner.lastUf then EventUnit.post s.aligner.flywheel.superframe s.engine.address .upstreamClear none none s.events
        else s.events } := by
  unfold State.updateLastUf
  by_cases h : s.aligner.lastUf = false
  · rw [if_pos h, if_neg (Bool.eq_false_iff.1 h), ← h]
  · simp only [h, if_true]; rfl

theorem State.learnPosition_eq (s : State) (hop : BitVec 6) :
    State.learnPosition s hop = { s with
      aligner := { s.aligner with position := if hop.toNat ≤ 61 then some (hop + 1#6) else s.aligner.position }
      events :=
        if hop.toNat ≤ 61 ∧ s.aligner.position ≠ some (hop + 1#6) then
          EventUnit.post s.aligner.flywheel.superframe s.engine.address .positionChanged none (some (0#18 ++ (hop + 1#6))) s.events
        else s.events } := by
  unfold State.learnPosition positionOfHop
  by_cases hh : hop.toNat ≤ 61
  · by_cases hp : s.aligner.position = some (hop + 1#6)
    · simp only [hh, hp, if_true, ne_eq, not_true_eq_false, and_false, if_false]
      rw [← hp]
    · simp only [hh, hp, if_true, if_false, ne_eq, not_false_eq_true, and_self]
      rfl
  · simp only [hh, if_false, false_and]

/-- What a good frame teaches: the position and the last UF, with the events of what changed in a free order (R26 to R28). -/
theorem State.learnFrom_eq {s : State} {f : Frame} (hn : f.number.superframe = s.aligner.flywheel.superframe) :
    ∃ ev, State.Taught s f ev ∧ State.learnFrom s f = { s with
      aligner := { s.aligner with position := State.positionTaught s f, lastUf := f.uf }
      events := ev, choices := (State.learnFrom s f).choices } := by
  cases hu : f.uf with
  | true =>
    have hlearn : State.learnFrom s f = State.updateLastUf s true := by rw [State.learnFrom, hu]; rfl
    have hposition : State.positionTaught s f = s.aligner.position := if_neg (by simp [hu])
    refine ⟨(State.updateLastUf s true).events, ⟨fun _ => ?_, fun h => nomatch hu.symm.trans h⟩, ?_⟩
    · rw [State.updateLastUf_rises, hn]
    · rw [hlearn, State.updateLastUf_rises, hposition]
  | false =>
    have hposition : State.positionTaught s f = if f.hop.toNat ≤ 61 then some (f.hop + 1#6) else s.aligner.position := by
      simp only [State.positionTaught, hu, true_and]
    have hlearn : State.learnFrom s f = State.updateLastUf (State.learnPosition (State.draw s) f.hop) false ∨
        State.learnFrom s f = State.learnPosition (State.updateLastUf (State.draw s) false) f.hop := by
      rw [State.learnFrom, hu]
      cases Config.positionPostedFirst s.choices
      · exact .inr rfl
      · exact .inl rfl
    rcases hlearn with hlearn | hlearn
    · refine ⟨(State.learnFrom s f).events, ⟨fun h => (nomatch hu.symm.trans h), fun _ => .inr ?_⟩, ?_⟩
      · rw [hlearn, State.updateLastUf_falls, State.learnPosition_eq, hn]
        rfl
      · rw [hlearn, State.updateLastUf_falls, State.learnPosition_eq, hposition]
        rfl
    · refine ⟨(State.learnFrom s f).events, ⟨fun h => (nomatch hu.symm.trans h), fun _ => .inl ?_⟩, ?_⟩
      · rw [hlearn, State.learnPosition_eq, State.updateLastUf_falls, hn]
        rfl
      · rw [hlearn, State.learnPosition_eq, State.updateLastUf_falls, hposition]
        rfl

/-- A good frame that teaches nothing new posts nothing. -/
theorem State.Taught.of_known {s : State} {f : Frame} {ev : EventUnit} (h : State.Taught s f ev) (hu : f.uf = false)
    (hl : s.aligner.lastUf = false) (hp : s.aligner.position = some (f.hop + 1#6)) : ev = s.events := by
  have hev := h.2 hu
  simp only [hl, hp, Bool.false_eq_true, if_false, ne_eq, not_true_eq_false, and_false, or_self] at hev
  exact hev

theorem State.Taught.congr {s t : State} {f : Frame} {ev : EventUnit} (h : State.Taught s f ev)
    (hl : s.aligner.lastUf = t.aligner.lastUf) (hp : s.aligner.position = t.aligner.position) (he : s.events = t.events)
    (ha : s.engine.address = t.engine.address) : State.Taught t f ev := by
  simp only [State.Taught, hl, hp, he, ha] at h ⊢
  exact h

theorem State.classOf_good {s : State} {f : Frame} (h : State.TakesAsGood s f) : State.classOf s f = .good :=
  (frameClass_good_iff _ _).2 h.2.2

theorem State.ringTimeOf_good {s : State} {f : Frame} (h : State.TakesAsGood s f) : State.ringTimeOf s f = !f.uf := by
  rw [State.ringTimeOf, State.classOf_good h]; rfl

/-- The node once the aligner has taken a good frame for itself (R19, R22, R23, R26, R27). -/
theorem State.taken_of_good {s : State} {f : Frame} (h : State.TakesAsGood s f) :
    ∃ ev, State.Taught s f ev ∧ State.taken s f = { State.settleChoice s with
      aligner := { Aligner.stepped s.aligner with consecutiveBad := 0, position := State.positionTaught s f, lastUf := f.uf }
      ringOut := State.withCopy s f (State.positionTaught s f) (!f.uf)
      counters := if f.em then (State.count s .markedFrames).counters else s.counters
      events := ev
      choices := (State.taken s f).choices } := by
  have hsettled := State.settleChoice_frame s
  have hringOut : (State.settleChoice s).ringOut = s.ringOut := by rw [hsettled]
  have hstepped := Aligner.stepped_eq s.aligner
  have hflywheel : (Aligner.stepped s.aligner).flywheel = successor s.aligner.flywheel := by rw [hstepped]
  have hsound : ringTimeValid (State.classOf s f) f.uf = !f.uf := State.ringTimeOf_good h
  obtain ⟨hr, ha, hs, hc, hn⟩ := id h
  let x : State := { State.settleChoice s with
    aligner := { Aligner.stepped s.aligner with consecutiveBad := 0 }
    counters := if f.em then (State.count s .markedFrames).counters else s.counters }
  have hgood : State.takeClassified (State.stepFlywheel (State.settleChoice s)) f (State.classOf s f) = State.learnFrom x f := by
    rw [State.takeClassified, if_pos (State.classOf_good h), State.takeGood, State.stepFlywheel_settled]
    refine congrArg (State.learnFrom · f) ?_
    simp only [x]
    rw [hsettled]
    cases f.em <;> rfl
  obtain ⟨ev, htaught, hlearn⟩ := State.learnFrom_eq (s := x) (f := f) (by rw [hn]; exact congrArg _ hflywheel.symm)
  have hposition : State.positionTaught x f = State.positionTaught s f := by
    have : x.aligner.position = s.aligner.position := by simp only [x, hstepped]
    simp only [State.positionTaught, this]
  refine ⟨ev, htaught.congr (by simp only [x, hstepped]) (by simp only [x, hstepped]) (by simp only [x]; rw [hsettled])
    (by simp only [x]; rw [hsettled]), ?_⟩
  have htaken : State.taken s f = State.queueCopy (State.learnFrom x f) f (State.classOf s f) := by rw [← hgood]; rfl
  have hcopied := State.queueCopy_eq (s := s) (t := State.learnFrom x f) (f := f) (c := State.classOf s f)
    (p := State.positionTaught s f) (by rw [hlearn]; exact hringOut) (by rw [hlearn]; exact hflywheel)
    (by rw [hlearn, ← hposition])
  rw [htaken, hcopied, hsound, hlearn, hposition]

/-- A good frame that is handed on where the Map Store and the Watch Unit have nothing to do (R28). -/
theorem State.handOn_quiet {s v : State} {copied good rt : Bool} {f : Frame}
    (hv : State.serveFrame good rt f (State.draw s) = v) (hf : State.fireSwitch rt (State.draw s) = State.draw s)
    (hw : State.watchFrame copied rt f (State.draw s) = State.draw s) (hfv : State.fireSwitch rt v = v)
    (hwv : State.watchFrame copied rt f v = v) : State.handOn s copied good rt f = v := by
  simp only [State.handOn, hf, hw, hv, hfv, hwv]
  split <;> rfl

theorem State.serveFrame_idle {f : Frame} (h : Segment.read f.service = some (.idle, [])) (rt : Bool) (s : State) :
    State.serveFrame true rt f s = s := by
  simp only [State.serveFrame, State.receiveSegment, h, if_true]

/-- A good frame with an IDLE segment reaches the Map Store and the Watch Unit in one order or the other (R28). -/
theorem State.handOn_idle {f : Frame} (h : Segment.read f.service = some (.idle, [])) (s : State) (copied rt : Bool) :
    State.handOn s copied true rt f = State.watchFrame copied rt f (State.fireSwitch rt (State.draw s)) ∨
      State.handOn s copied true rt f = State.fireSwitch rt (State.watchFrame copied rt f (State.draw s)) := by
  simp only [State.handOn, State.serveFrame_idle h]
  split
  all_goals first | exact .inl rfl | exact .inr rfl

theorem State.handedOn_idle {s : State} {f : Frame} (h : State.TakesAsGood s f) (hi : Segment.read f.service = some (.idle, [])) :
    State.classify s f = State.watchFrame s.ringOut.copyArriving (!f.uf) f (State.fireSwitch (!f.uf) (State.draw (State.taken s f))) ∨
      State.classify s f =
        State.fireSwitch (!f.uf) (State.watchFrame s.ringOut.copyArriving (!f.uf) f (State.draw (State.taken s f))) := by
  have hgood := State.classOf_good h
  rw [State.classify_eq, if_pos hgood, State.handedOn, hgood, State.ringTimeOf_good h]
  exact State.handOn_idle hi _ _ _

/-! ### One watch (R94 to R99) -/

/-- How often in a row the value `v` has been a watch's candidate, with the frame that carries it (R95). -/
def Watch.seen (w : Watch) (v : Sample) : Nat := if w.candidate = some v then w.candidateCount + 1 else 1

/-- Whether `v` is accepted as the stable value (R95). -/
def Watch.settles (w : Watch) (v : Sample) : Bool := decide (w.stable ≠ some v) && decide (w.setup.debounce ≤ Watch.seen w v)

/-- The watch after the comparison of R95. -/
def Watch.compared (w : Watch) (v : Sample) : Watch :=
  if w.stable = some v then { w with candidate := none, candidateCount := 0 }
  else if Watch.settles w v then { w with stable := some v, candidate := none, candidateCount := 0 }
  else { w with candidate := some v, candidateCount := Watch.seen w v }

theorem Watch.compareChange_eq (w : Watch) (v : Sample) :
    Watch.compareChange w v =
      (Watch.compared w v, if Watch.settles w v && w.stable.isSome then some v else none) := by
  unfold Watch.compareChange Watch.compared Watch.settles
  by_cases hs : w.stable = some v
  · simp [hs]
  · have hseen : (if w.candidate = some v then Watch.candidateSeen w v (w.candidateCount + 1) else Watch.candidateSeen w v 1) =
        Watch.candidateSeen w v (Watch.seen w v) := by
      unfold Watch.seen; split <;> rfl
    rw [if_neg hs, if_neg hs, hseen, Watch.candidateSeen]
    by_cases hd : w.setup.debounce ≤ Watch.seen w v <;> simp [hs, hd]

theorem Watch.matchActivity_eq (w : Watch) (x : Sample) :
    Watch.matchActivity w x =
      (decide (Watch.masked w x = w.setup.value &&& w.setup.mask) == decide (w.setup.sense = .matching)) := by
  unfold Watch.matchActivity
  cases w.setup.sense <;> simp

/-- The step of a frame without activity (R97, R98). -/
theorem Watch.quietFrame_eq (w : Watch) (start : Bool) :
    (Watch.quietFrame w start).1 =
      if start = true ∧ 0 < w.silence then
        { w with silence := w.silence - 1, status := if w.silence = 1 then .silent else w.status }
      else w := by
  unfold Watch.quietFrame Watch.stepSilence
  cases start
  · simp
  · by_cases h0 : w.silence = 0
    · simp [h0]
    · by_cases h1 : w.silence = 1
      · simp [h1]
      · simp [h0, h1, Nat.pos_of_ne_zero h0]

/-- An evaluation by the mode: what it compares, and whether that is activity (R94 to R97). -/
theorem Watch.evaluate_activity {w : Watch} (hm : w.setup.mode = .activity) (x : Sample) (start : Bool) :
    Watch.evaluate w x start =
      if Watch.matchActivity w x then (Watch.showsActivity w, Watch.resumption w) else Watch.quietFrame w start := by
  simp only [Watch.evaluate, hm]

theorem Watch.evaluate_change {w : Watch} (hm : w.setup.mode = .change) (x : Sample) (start : Bool) :
    Watch.evaluate w x start =
      if Watch.settles w (Watch.masked w x) && w.stable.isSome then
        (Watch.showsActivity (Watch.compared w (Watch.masked w x)),
          (.watchChanged, some (Watch.masked w x)) :: Watch.resumption (Watch.compared w (Watch.masked w x)))
      else Watch.quietFrame (Watch.compared w (Watch.masked w x)) start := by
  simp only [Watch.evaluate, hm, Watch.compareChange_eq]
  split
  · next h => split at h <;> cases h; simp_all
  · next h => split at h <;> cases h; simp_all

/-! ### The Watch Unit on a frame (R91, R93) -/

/-- A watch after the evaluation of a frame: as it was where it is disabled (R91, R93). -/
def Watch.evaluated (w : Watch) (p : Payload) (start : Bool) : Watch :=
  if w.setup.enabled then (Watch.evaluate w p[w.setup.slot] start).1 else w

theorem State.evaluateWatch_watch (copied : Bool) (p : Payload) (start : Bool) (s : State) (i j : WatchId) :
    (State.evaluateWatch copied p start s j).watches[i] =
      if j = i then Watch.evaluated s.watches[i] p start else s.watches[i] := by
  rw [State.evaluateWatch_watches, Watch.evaluated]
  by_cases hji : j = i
  · subst hji
    rw [if_pos rfl]
    split
    · rw [Vector.set_fin, if_pos rfl]
    · rfl
  · rw [if_neg hji]
    split
    · rw [Vector.set_fin, if_neg hji]
    · rfl

theorem State.foldl_evaluateWatch (copied : Bool) (p : Payload) (start : Bool) (i : WatchId) {is : List WatchId} (hnd : is.Nodup)
    (s : State) :
    (is.foldl (State.evaluateWatch copied p start) s).watches[i] =
      if i ∈ is then Watch.evaluated s.watches[i] p start else s.watches[i] := by
  induction is generalizing s with
  | nil => simp
  | cons j is ih =>
    obtain ⟨hj, hrest⟩ := List.nodup_cons.1 hnd
    rw [List.foldl_cons, ih hrest, State.evaluateWatch_watch]
    by_cases hji : j = i
    · subst hji; rw [if_neg hj, if_pos rfl, if_pos List.mem_cons_self]
    · simp only [hji, if_false, List.mem_cons, Ne.symm hji, false_or]

theorem State.evaluateWatches_watch (copied : Bool) (p : Payload) (start : Bool) (s : State) (i : WatchId) :
    (State.evaluateWatches copied p start s).watches[i] = Watch.evaluated s.watches[i] p start := by
  rw [State.evaluateWatches, State.foldl_evaluateWatch _ _ _ _ (List.nodup_finRange 16), if_pos (List.mem_finRange i)]

theorem State.foldl_evaluateWatch_of_disabled (copied : Bool) (p : Payload) (start : Bool) {is : List WatchId} {s : State}
    (h : ∀ j ∈ is, s.watches[j].setup.enabled = false) : is.foldl (State.evaluateWatch copied p start) s = s := by
  induction is with
  | nil => rfl
  | cons j is ih =>
    have hsame : State.evaluateWatch copied p start s j = s := by
      simp only [State.evaluateWatch, h j List.mem_cons_self, Bool.false_eq_true, if_false]
    rw [List.foldl_cons, hsame, ih fun k hk => h k (List.mem_cons_of_mem j hk)]

/-- With one watch enabled the unit is that watch (R93). -/
theorem State.evaluateWatches_of_one {s : State} {i : WatchId} (h : ∀ j : WatchId, s.watches[j].setup.enabled = true ↔ j = i)
    (copied : Bool) (p : Payload) (start : Bool) :
    State.evaluateWatches copied p start s = State.evaluateWatch copied p start s i := by
  obtain ⟨before, after, hsplit⟩ := List.append_of_mem (List.mem_finRange i)
  have hnd := hsplit ▸ List.nodup_finRange 16
  obtain ⟨-, hcons, hbefore⟩ := List.nodup_append.1 hnd
  have hafter : i ∉ after := (List.nodup_cons.1 hcons).1
  have hdisabled (j : WatchId) (hj : j ≠ i) : s.watches[j].setup.enabled = false := Bool.eq_false_iff.2 (mt (h j).1 hj)
  have hhead : before.foldl (State.evaluateWatch copied p start) s = s :=
    State.foldl_evaluateWatch_of_disabled _ _ _ fun j hj => hdisabled j (hbefore j hj i List.mem_cons_self)
  rw [State.evaluateWatches, hsplit, List.foldl_append, List.foldl_cons, hhead]
  refine State.foldl_evaluateWatch_of_disabled _ _ _ fun j hj => ?_
  have hji : j ≠ i := fun he => hafter (he ▸ hj)
  rw [State.evaluateWatch_watch, if_neg (Ne.symm hji)]
  exact hdisabled j hji

/-- The statuses that the evaluation notes stand in the newest copy that is due, if the frame has one (R45). -/
theorem State.evaluateWatches_copies (copied : Bool) (p : Payload) (start : Bool) (s : State) :
    (copied = false → (State.evaluateWatches copied p start s).ringOut.copies = s.ringOut.copies) ∧
      ∀ older c, s.ringOut.copies = older ++ [c] → ∃ before,
        (State.evaluateWatches copied p start s).ringOut.copies = older ++ [{ c with statusBefore := before }] := by
  unfold State.evaluateWatches
  generalize List.finRange 16 = is
  induction is generalizing s with
  | nil => exact ⟨fun _ => rfl, fun older c h => ⟨c.statusBefore, h⟩⟩
  | cons i is ih =>
    have hstep : (State.evaluateWatch copied p start s i).ringOut.copies = s.ringOut.copies ∨ (copied = true ∧
        ∃ st, (State.evaluateWatch copied p start s i).ringOut = RingOut.noteStatus s.ringOut i st) := by
      unfold State.evaluateWatch
      simp only
      split
      · rw [State.postWatch_frame]
        split
        · next hnote => exact .inr ⟨(Bool.and_eq_true _ _ ▸ hnote).1, _, rfl⟩
        · exact .inl rfl
      · exact .inl rfl
    obtain ⟨hsame, hnoted⟩ := ih (State.evaluateWatch copied p start s i)
    rw [List.foldl_cons]
    refine ⟨fun hc => ?_, fun older c hcopies => ?_⟩
    · rcases hstep with h | ⟨hcopied, -⟩
      · rw [hsame hc, h]
      · rw [hc] at hcopied; cases hcopied
    · rcases hstep with h | ⟨-, st, h⟩
      · exact hnoted older c (h.trans hcopies)
      · have hnew : (State.evaluateWatch copied p start s i).ringOut.copies =
            older ++ [{ c with statusBefore := c.statusBefore ++ [(i, st)] }] := by
          rw [h, RingOut.noteStatus, hcopies]; simp
        obtain ⟨before, hb⟩ := hnoted older _ hnew
        exact ⟨before, hb⟩

/-! ### The Map Store and the Watch Unit together (R28) -/

theorem State.watchFrame_frame (copied rt : Bool) (f : Frame) (s : State) :
    State.watchFrame copied rt f s = { s with
      watches := (State.watchFrame copied rt f s).watches
      ringOut := { s.ringOut with copies := (State.watchFrame copied rt f s).ringOut.copies }
      events := (State.watchFrame copied rt f s).events } := by
  unfold State.watchFrame
  split
  · rw [State.evaluateWatches_frame]
  · rfl

theorem State.watchFrame_copies (copied rt : Bool) (f : Frame) (s : State) :
    (copied = false → (State.watchFrame copied rt f s).ringOut.copies = s.ringOut.copies) ∧
      ∀ older c, s.ringOut.copies = older ++ [c] → ∃ before,
        (State.watchFrame copied rt f s).ringOut.copies = older ++ [{ c with statusBefore := before }] := by
  unfold State.watchFrame
  split
  · exact State.evaluateWatches_copies _ _ _ _
  · exact ⟨fun _ => rfl, fun older c h => ⟨c.statusBefore, h⟩⟩

/-- A node at a frame that passes the Map Store and the Watch Unit quietly is left alone by both. -/
theorem State.PassesQuietly.rests {s x : State} {f : Frame} (h : State.PassesQuietly s f) (hw : x.watches = s.watches)
    (hm : x.mapStore = s.mapStore) (hn : x.aligner.flywheel = f.number) (copied : Bool) :
    State.fireSwitch (!f.uf) x = x ∧ State.watchFrame copied (!f.uf) f x = x := by
  rcases h with hu | ⟨hdisabled, hpending⟩
  · exact ⟨State.fireSwitch_quiet _ x (.inl (by rw [hu]; rfl)), State.watchFrame_quiet _ _ f x (.inl (by rw [hu]; rfl))⟩
  · refine ⟨State.fireSwitch_quiet _ x (.inr fun target ht => ?_), State.watchFrame_quiet _ _ f x (.inr fun i => ?_)⟩
    · rw [hn]; rw [hm] at ht; exact hpending target ht
    · rw [hw]; exact hdisabled i

section
variable {s : State} {f : Frame} (h : State.TakesAsGood s f)
include h

theorem State.taken_number : (State.taken s f).aligner.flywheel = f.number := by
  rw [State.taken_flywheel]; exact h.2.2.2.2.symm

/-- A good frame that passes quietly, as the Service Channel Unit leaves it (R28, R110). -/
theorem State.classify_quiet {v : State} (hq : State.PassesQuietly s f)
    (hv : State.receiveSegment (State.draw (State.taken s f)) f.service (!f.uf) = v)
    (hfire : State.fireSwitch (!f.uf) v = v) (hwatch : State.watchFrame s.ringOut.copyArriving (!f.uf) f v = v) :
    State.classify s f = v := by
  have hgood := State.classOf_good h
  have htaken := State.taken_frame s f
  obtain ⟨hf, hw⟩ := hq.rests (x := State.draw (State.taken s f))
    (by rw [State.draw_watches, htaken, State.settleChoice_frame]) (by rw [State.draw_mapStore, htaken, State.settleChoice_frame])
    (State.taken_number h) s.ringOut.copyArriving
  rw [State.classify_eq, if_pos hgood, State.handedOn, hgood, State.ringTimeOf_good h]
  exact State.handOn_quiet hv hf hw hfire hwatch

variable (hi : Segment.read f.service = some (.idle, []))
include hi

theorem State.classify_quiet_idle (hq : State.PassesQuietly s f) : State.classify s f = State.draw (State.taken s f) := by
  have htaken := State.taken_frame s f
  obtain ⟨hf, hw⟩ := hq.rests (x := State.draw (State.taken s f))
    (by rw [State.draw_watches, htaken, State.settleChoice_frame]) (by rw [State.draw_mapStore, htaken, State.settleChoice_frame])
    (State.taken_number h) s.ringOut.copyArriving
  exact State.classify_quiet h hq (by simp only [State.receiveSegment, hi]) hf hw

/-- What a good frame with an IDLE segment touches behind what it teaches (R28). -/
theorem State.classify_idle_frame :
    State.classify s f = { State.taken s f with
      mapStore := (State.classify s f).mapStore
      watches := (State.classify s f).watches
      ringOut := { (State.taken s f).ringOut with copies := (State.classify s f).ringOut.copies }
      events := (State.classify s f).events
      choices := (State.classify s f).choices } := by
  rcases State.handedOn_idle h hi with he | he
  · rw [he, State.watchFrame_frame, State.fireSwitch_frame]; rfl
  · rw [he, State.fireSwitch_frame, State.watchFrame_frame]; rfl

theorem State.classify_idle_copies :
    (s.ringOut.copyArriving = false → (State.classify s f).ringOut.copies = (State.taken s f).ringOut.copies) ∧
      ∀ older c, (State.taken s f).ringOut.copies = older ++ [c] → ∃ before,
        (State.classify s f).ringOut.copies = older ++ [{ c with statusBefore := before }] := by
  rcases State.handedOn_idle h hi with he | he
  · have := State.watchFrame_copies s.ringOut.copyArriving (!f.uf) f (State.fireSwitch (!f.uf) (State.draw (State.taken s f)))
    rw [he]
    rwa [show (State.fireSwitch (!f.uf) (State.draw (State.taken s f))).ringOut = (State.taken s f).ringOut by
      rw [State.fireSwitch_frame]; rfl] at this
  · rw [he, State.fireSwitch_frame]
    exact State.watchFrame_copies s.ringOut.copyArriving (!f.uf) f (State.draw (State.taken s f))

end

/-! ### The Map Store alone (R62 to R66) -/

theorem State.fireSwitch_stays {s : State} {m : MapStore} (hs : s.aligner.flywheel.index = 0#4)
    (hf : MapStore.fire s.mapStore s.aligner.flywheel.superframe = (m, none)) :
    State.fireSwitch true s = { s with mapStore := m } := by
  have hstart : FrameNumber.isStart s.aligner.flywheel = true := decide_eq_true hs
  simp only [State.fireSwitch, hstart, hf, Bool.and_self, if_true]

theorem State.fireSwitch_swaps {s : State} {m : MapStore} {k : EventKind} {v : Sample} (hs : s.aligner.flywheel.index = 0#4)
    (hf : MapStore.fire s.mapStore s.aligner.flywheel.superframe = (m, some (k, v))) :
    State.fireSwitch true s = State.post { s with mapStore := m } k none (some v) := by
  have hstart : FrameNumber.isStart s.aligner.flywheel = true := decide_eq_true hs
  simp only [State.fireSwitch, hstart, hf, Bool.and_self, if_true]

/-- The test of a pending switch by the place of its target (R62, R64, R66). -/
theorem MapStore.fire_ahead {m : MapStore} {target sf : Superframe} (hp : m.shadow = .pending target)
    (h : 1 ≤ (target - sf).toNat ∧ (target - sf).toNat ≤ 32767) : MapStore.fire m sf = (m, none) := by
  simp only [MapStore.fire, hp, (isAhead_iff target sf).2 h, if_true]

theorem MapStore.fire_equal {m : MapStore} {target : Superframe} (hp : m.shadow = .pending target) :
    MapStore.fire m target = (MapStore.swap m, some (.switchDone, recordValue target)) := by
  have hahead : isAhead target target = false := by
    rw [Bool.eq_false_iff, ne_eq, isAhead_iff, BitVec.sub_self]; decide
  simp only [MapStore.fire, hp, hahead, Bool.false_eq_true, if_false, if_true]

theorem MapStore.fire_late {m : MapStore} {target sf : Superframe} (hp : m.shadow = .pending target)
    (h : 32768 ≤ (target - sf).toNat) : MapStore.fire m sf = (MapStore.swap m, some (.switchLate, recordValue (sf - target))) := by
  have hahead : isAhead target sf = false := by rw [Bool.eq_false_iff, ne_eq, isAhead_iff]; omega
  have hne : target ≠ sf := by rintro rfl; rw [BitVec.sub_self] at h; exact absurd h (by decide)
  simp only [MapStore.fire, hp, hahead, hne, Bool.false_eq_true, if_false]

/-- With no watch enabled an IDLE frame reaches the Map Store alone. -/
theorem State.classify_unwatched {s : State} {f : Frame} (h : State.TakesAsGood s f)
    (hi : Segment.read f.service = some (.idle, [])) (hw : ∀ i : WatchId, s.watches[i].setup.enabled = false) :
    State.classify s f = State.fireSwitch (!f.uf) (State.draw (State.taken s f)) := by
  have hwatches : (State.taken s f).watches = s.watches := by rw [State.taken_frame, State.settleChoice_frame]
  rcases State.handedOn_idle h hi with he | he
  · rw [he, State.watchFrame_quiet]
    refine .inr fun i => ?_
    rw [State.fireSwitch_frame, State.draw_watches, hwatches, hw i]
  · rw [he, State.watchFrame_quiet]
    refine .inr fun i => ?_
    rw [State.draw_watches, hwatches, hw i]

/-! ### The Watch Unit alone (R91 to R100) -/

theorem Watch.compared_kept (w : Watch) (v : Sample) :
    (Watch.compared w v).silence = w.silence ∧ (Watch.compared w v).status = w.status ∧ (Watch.compared w v).setup = w.setup := by
  unfold Watch.compared
  split <;> [skip; split] <;> exact ⟨rfl, rfl, rfl⟩

/-- A frame without activity records the fall to SILENT and nothing else (R98). -/
theorem Watch.quietFrame_events (w : Watch) (start : Bool) :
    (Watch.quietFrame w start).1.stable = w.stable ∧
      (w.status = .silent → (Watch.quietFrame w start).1.status = .silent) ∧
      (Watch.quietFrame w start).2 =
        if w.status = .active ∧ (Watch.quietFrame w start).1.status = .silent then [(.watchSilent, none)] else [] := by
  refine ⟨?_, ?_, ?_⟩
  · rw [Watch.quietFrame_eq]; split <;> rfl
  · intro hs
    rw [Watch.quietFrame_eq]
    split
    · show (if w.silence = 1 then WatchStatus.silent else w.status) = _
      rw [hs, ite_self]
    · exact hs
  · unfold Watch.quietFrame
    cases start
    · cases hst : w.status <;> simp [hst]
    · rfl

theorem Watch.resumption_eq (w : Watch) : Watch.resumption w = if w.status = .silent then [(.watchResumed, none)] else [] := by
  unfold Watch.resumption
  cases w.status <;> rfl

/-- The events of an evaluation are what it changed: the stable value before the resumption, or the fall to SILENT (R98 to
R100). -/
theorem Watch.evaluate_events (w : Watch) (x : Sample) (start : Bool) :
    let u := (Watch.evaluate w x start).1
    (Watch.evaluate w x start).2 =
      (if w.stable.isSome ∧ u.stable ≠ w.stable then [(.watchChanged, u.stable)] else []) ++
        (if w.status = .silent ∧ u.status = .active then [(.watchResumed, none)] else []) ++
        (if w.status = .active ∧ u.status = .silent then [(.watchSilent, none)] else []) := by
  intro u
  have hshows (y : Watch) : (Watch.showsActivity y).status = .active ∧ (Watch.showsActivity y).stable = y.stable := ⟨rfl, rfl⟩
  cases hm : w.setup.mode with
  | activity =>
    simp only [u, Watch.evaluate_activity hm]
    split
    · simp [hshows, Watch.resumption_eq]
    · obtain ⟨hstable, hsilent, hevents⟩ := Watch.quietFrame_events w start
      rw [hevents]
      cases hst : w.status with
      | active => simp [hstable]
      | silent => simp [hstable, hsilent hst]
  | change =>
    obtain ⟨-, hstatus, -⟩ := Watch.compared_kept w (Watch.masked w x)
    simp only [u, Watch.evaluate_change hm]
    split
    · next hc =>
      simp only [Watch.settles, Bool.and_eq_true, decide_eq_true_eq] at hc
      obtain ⟨⟨hne, hseen⟩, hsome⟩ := hc
      have hstable : (Watch.compared w (Watch.masked w x)).stable = some (Watch.masked w x) := by
        simp [Watch.compared, Watch.settles, hne, hseen]
      simp [hshows, Watch.resumption_eq, hstatus, hstable, hsome, Ne.symm hne]
    · next hc =>
      obtain ⟨hstable, hsilent, hevents⟩ := Watch.quietFrame_events (Watch.compared w (Watch.masked w x)) start
      have hsame : ¬(w.stable.isSome = true ∧ (Watch.compared w (Watch.masked w x)).stable ≠ w.stable) := by
        rintro ⟨hsome, hne⟩
        refine hne ?_
        have hnot : Watch.settles w (Watch.masked w x) = false := by simpa [hsome] using hc
        unfold Watch.compared
        split
        · rfl
        · rw [hnot]; rfl
      rw [hevents, hstable, if_neg hsame]
      rw [hstatus] at hsilent ⊢
      cases hst : w.status with
      | active => simp
      | silent => simp [hsilent hst]

/-- The posts of a watch, one after another (R100). -/
theorem State.postWatch_events (s : State) (i : WatchId) (es : List (EventKind × Option Sample)) :
    (State.postWatch s i es).events =
      es.foldl (fun ev e => EventUnit.post s.aligner.flywheel.superframe s.engine.address e.1 (some i) e.2 ev) s.events := by
  induction es generalizing s with
  | nil => rfl
  | cons e es ih => exact ih (State.post s e.1 (some i) e.2)

theorem State.evaluateWatch_events {s : State} {i : WatchId} {w : Watch} (hw : s.watches[i] = w) (he : w.setup.enabled = true)
    (copied : Bool) (p : Payload) (start : Bool) :
    (State.evaluateWatch copied p start s i).events =
      (Watch.evaluate w p[w.setup.slot] start).2.foldl
        (fun ev e => EventUnit.post s.aligner.flywheel.superframe s.engine.address e.1 (some i) e.2 ev) s.events := by
  subst hw
  simp only [State.evaluateWatch, he, if_true]
  rw [State.postWatch_events]
  split <;> rfl

/-- An IDLE frame with ring time evaluates every watch, whatever the Map Store does (R93). -/
theorem State.classify_idle_watch {s : State} {f : Frame} (h : State.TakesAsGood s f)
    (hi : Segment.read f.service = some (.idle, [])) (hu : f.uf = false) (i : WatchId) :
    (State.classify s f).watches[i] = Watch.evaluated s.watches[i] f.payload (FrameNumber.isStart f.number) := by
  have hwatches : (State.taken s f).watches = s.watches := by rw [State.taken_frame, State.settleChoice_frame]
  have hunit (copied : Bool) (x : State) (hn : x.aligner.flywheel = f.number) (hx : x.watches = s.watches) :
      (State.watchFrame copied true f x).watches[i] = Watch.evaluated s.watches[i] f.payload (FrameNumber.isStart f.number) := by
    rw [State.watchFrame, if_pos rfl, State.evaluateWatches_watch, hn, hx]
  have hnumber : (State.draw (State.taken s f)).aligner.flywheel = f.number := State.taken_number h
  rcases State.handedOn_idle h hi with he | he <;> rw [he, hu, Bool.not_false]
  · exact hunit _ (State.fireSwitch true (State.draw (State.taken s f))) (by rw [State.fireSwitch_frame, hnumber])
      (by rw [State.fireSwitch_frame, State.draw_watches, hwatches])
  · have hfire (x : State) : (State.fireSwitch true x).watches = x.watches := by rw [State.fireSwitch_frame]
    rw [hfire]
    exact hunit _ (State.draw (State.taken s f)) hnumber (by rw [State.draw_watches, hwatches])

/-- With nothing PENDING an IDLE frame reaches the Watch Unit alone. -/
theorem State.classify_unscheduled {s : State} {f : Frame} (h : State.TakesAsGood s f)
    (hi : Segment.read f.service = some (.idle, [])) (hp : ∀ target, s.mapStore.shadow ≠ .pending target) :
    State.classify s f = State.watchFrame s.ringOut.copyArriving (!f.uf) f (State.draw (State.taken s f)) := by
  have hmap : (State.draw (State.taken s f)).mapStore = s.mapStore := by
    rw [State.draw_mapStore, State.taken_frame, State.settleChoice_frame]
  rcases State.handedOn_idle h hi with he | he
  · rw [he, State.fireSwitch_quiet _ _ (.inr fun target ht => absurd (hmap ▸ ht) (hp target))]
  · rw [he]
    refine State.fireSwitch_quiet _ _ (.inr fun target ht => absurd ?_ (hp target))
    rw [State.watchFrame_frame] at ht
    exact hmap ▸ ht

/-- A frame that is not good, or has UF 1 and an IDLE segment, evaluates no watch (R91, R93). -/
theorem State.classify_unevaluated {s : State} {f : Frame}
    (h : State.classOf s f ≠ .good ∨ (State.TakesAsGood s f ∧ Segment.read f.service = some (.idle, []) ∧ f.uf = true)) :
    (State.classify s f).watches = s.watches := by
  rcases h with hbad | ⟨hgood, hi, hu⟩
  · rw [State.classify_eq, if_neg hbad, State.judgeQuality_frame, State.handedOn_of_bad_eq hbad]
  · rw [State.classify_quiet_idle hgood hi (.inl hu), State.draw_watches, State.taken_frame, State.settleChoice_frame]

end Sys2Proof.Machine

namespace Sys2Proof.Proofs

open Sys2Proof Sys2Proof.Machine

set_option Elab.async false

/-- Settles O12: what a good frame teaches is all the aligner does with it; behind an IDLE segment the Map Store and the Watch Unit
touch the map, the watches, the statuses noted in its copy and the events alone. -/
theorem goodFrameTeaches : Obligations.GoodFrameTeaches := by
  intro s f h hi closes position
  obtain ⟨hr, ha, hs, hcheck, hn⟩ := id h
  have hexec : exec (.frameClassified f) s = .next (State.classify s f) := takenWhen_next hr (by rw [ha]; rfl) _
  obtain ⟨ev, htaught, htaken⟩ := State.taken_of_good h
  refine ⟨State.settleChoice s, _, State.settleChoice_settled s, hexec, ?frame, fun hc => ?gap, fun hc => ?copied,
    fun hq => ?quiet⟩
  case frame =>
    conv => lhs; rw [State.classify_idle_frame h hi, htaken, Aligner.stepped_eq, ← hn]
    rfl
  case gap =>
    rw [(State.classify_idle_copies h hi).1 hc, htaken]
    exact if_neg (Bool.eq_false_iff.1 hc)
  case copied =>
    have hcopies : (State.taken s f).ringOut.copies = s.ringOut.copies ++
        [{ number := f.number, hop := position.getD 63#6, uf := f.uf, em := f.em, payload := f.payload, sound := !f.uf
           statusBefore := [] }] := by
      rw [htaken, hn]
      refine (if_pos hc).trans ?_
      rw [decide_eq_false (not_not.2 hcheck), Bool.false_or]
    obtain ⟨before, hbefore⟩ := (State.classify_idle_copies h hi).2 _ _ hcopies
    exact ⟨before, hbefore⟩
  case quiet =>
    rw [State.classify_quiet_idle h hi hq, htaken, State.settleChoice_frame]
    exact ⟨rfl, rfl, htaught⟩

/-- Settles O14: with no watch enabled and nothing new taught, the frame leaves the Map Store's test and its event alone. -/
theorem pendingSwitchFires : Obligations.PendingSwitchFires := by
  intro s f target hr ha hs hc hn hstart hu hi hl hp hw hpending swapped post
  have h : State.TakesAsGood s f := ⟨hr, ha, hs, hc, hn⟩
  have hexec : exec (.frameClassified f) s = .next (State.classify s f) := takenWhen_next hr (by rw [ha]; rfl) _
  obtain ⟨ev, htaught, htaken⟩ := State.taken_of_good h
  have hevents : (State.taken s f).events = s.events := by rw [htaken]; exact htaught.of_known hu hl hp
  have hmap : (State.taken s f).mapStore = s.mapStore := by rw [State.taken_frame, State.settleChoice_frame]
  have hengine : (State.taken s f).engine = s.engine := by rw [State.taken_frame, State.settleChoice_frame]
  have hnumber := State.taken_number h
  have hclassify : State.classify s f = State.fireSwitch true (State.draw (State.taken s f)) := by
    rw [State.classify_unwatched h hi hw, hu]; rfl
  have hindex : (State.draw (State.taken s f)).aligner.flywheel.index = 0#4 := by
    rw [State.draw_aligner, hnumber, hstart]
  have hfires {m : MapStore} {k : EventKind} {v : Sample}
      (hf : MapStore.fire s.mapStore f.number.superframe = (m, some (k, v))) :
      ∃ t, exec (.frameClassified f) s = .next t ∧ t.mapStore = m ∧
        t.events = EventUnit.post f.number.superframe s.engine.address k none (some v) s.events := by
    refine ⟨_, hexec.trans (congrArg _ (hclassify.trans (State.fireSwitch_swaps hindex (m := m) (k := k) (v := v) ?_))), rfl, ?_⟩
    · rw [State.draw_mapStore, State.draw_aligner, hmap, hnumber, hf]
    · rw [State.post_events, State.draw_aligner, State.draw_engine, State.draw_events, hnumber, hengine, hevents]
  refine ⟨fun hahead => ?_, fun he => ?_, fun hlate => ?_⟩
  · have hstays := MapStore.fire_ahead hpending hahead
    refine ⟨_, hexec.trans (congrArg _ (hclassify.trans (State.fireSwitch_stays hindex (m := s.mapStore) ?_))), rfl, hevents⟩
    rw [State.draw_mapStore, State.draw_aligner, hmap, hnumber, hstays]
  · subst he
    exact hfires (MapStore.fire_equal hpending)
  · exact hfires (MapStore.fire_late hpending hlate)

/-- Settles O16: the watch's mode decides what is activity and what the comparison leaves. -/
theorem watchIsEvaluated : Obligations.WatchIsEvaluated := by
  intro s f i hr ha w v good seen settled activity moved
  have hexec : exec (.frameClassified f) s = .next (State.classify s f) := takenWhen_next hr (by rw [ha]; rfl) _
  refine ⟨fun ⟨hgood, hi, hu⟩ => ⟨_, hexec, ?_⟩, fun hno => ⟨_, hexec, State.classify_unevaluated ?_⟩⟩
  · have h : State.TakesAsGood s f := ⟨hr, ha, hgood⟩
    rw [State.classify_idle_watch h hi hu i]
    show Watch.evaluated w f.payload (FrameNumber.isStart f.number) = _
    have hstart : FrameNumber.isStart f.number = true ↔ f.number.index = 0#4 := decide_eq_true_iff
    rw [Watch.evaluated]
    cases he : w.setup.enabled with
    | false => rfl
    | true =>
      rw [if_pos rfl, if_neg (by decide)]
      cases hm : w.setup.mode with
      | activity =>
        have hactivity : activity = Watch.matchActivity w f.payload[w.setup.slot] := by
          simp only [activity, hm]; exact (Watch.matchActivity_eq _ _).symm
        have hmoved : moved = w := by simp only [moved, hm]
        rw [hactivity, hmoved, Watch.evaluate_activity hm]
        split
        · rfl
        · simp only [Watch.quietFrame_eq, hstart]
      | change =>
        have hactivity : activity = (Watch.settles w v && w.stable.isSome) := by
          simp only [activity, hm]; rfl
        have hmoved : moved = Watch.compared w v := by simp only [moved, hm]; rfl
        obtain ⟨hsilence, hstatus, hsetup⟩ := Watch.compared_kept w v
        rw [hactivity, hmoved, Watch.evaluate_change hm]
        show (if (Watch.settles w v && w.stable.isSome) = true then _ else Watch.quietFrame (Watch.compared w v) _).1 = _
        split
        · show Watch.showsActivity (Watch.compared w v) = _
          rw [Watch.showsActivity, hsetup]
        · simp only [Watch.quietFrame_eq, hstart, hsilence, hstatus]
  · rcases hno with hbad | ⟨hi, hu⟩
    · exact .inl fun hg => hbad ((frameClass_good_iff _ _).1 hg)
    · by_cases hgood : good
      · exact .inr ⟨⟨hr, ha, hgood⟩, hi, hu⟩
      · exact .inl fun hg => hgood ((frameClass_good_iff _ _).1 hg)

/-- Settles O17: the one enabled watch posts what its evaluation changed, and nothing else is posted. -/
theorem watchEventsAreRecorded : Obligations.WatchEventsAreRecorded := by
  intro s t f i hr ha hs hc hn hu hi hl hp hshadow honly hexec w u changed resumed silent
  have h : State.TakesAsGood s f := ⟨hr, ha, hs, hc, hn⟩
  obtain ⟨ev, htaught, htaken⟩ := State.taken_of_good h
  have ht : t = State.classify s f := Host.Outcome.next.inj (hexec.symm.trans (takenWhen_next hr (by rw [ha]; rfl) _))
  have hwatches : (State.draw (State.taken s f)).watches = s.watches := by
    rw [State.draw_watches, State.taken_frame, State.settleChoice_frame]
  have hengine : (State.draw (State.taken s f)).engine = s.engine := by
    rw [State.draw_engine, State.taken_frame, State.settleChoice_frame]
  have hevents : (State.draw (State.taken s f)).events = s.events := by
    rw [State.draw_events, htaken]; exact htaught.of_known hu hl hp
  have hnumber : (State.draw (State.taken s f)).aligner.flywheel = f.number := State.taken_number h
  have hevaluated : t = State.evaluateWatch s.ringOut.copyArriving f.payload (FrameNumber.isStart f.number)
      (State.draw (State.taken s f)) i := by
    rw [ht, State.classify_unscheduled h hi (by rw [hshadow]; exact fun _ => ShadowState.noConfusion), hu, State.watchFrame,
      Bool.not_false, if_pos rfl, hnumber, State.evaluateWatches_of_one (by rw [hwatches]; exact honly)]
  have henabled : s.watches[i].setup.enabled = true := (honly i).2 rfl
  have hu' : u = (Watch.evaluate w f.payload[w.setup.slot] (FrameNumber.isStart f.number)).1 := by
    show t.watches[i] = _
    rw [hevaluated, State.evaluateWatch_watch, if_pos rfl, hwatches, Watch.evaluated, if_pos henabled]
  rw [hevaluated, State.evaluateWatch_events (w := w) (by rw [hwatches]) henabled, hnumber, hengine, hevents,
    Watch.evaluate_events]
  simp only [changed, resumed, silent, hu', w]

end Sys2Proof.Proofs

/-! SUPPORT. The receive side of the Service Channel Unit, a rule for each of its operations (R110 to R121): what a segment leaves of
the packet in progress, the transit queue, the counters and the events. -/

namespace Sys2Proof.Machine

set_option Elab.async false

/-! ### The shape of every receive operation -/

/-- `y` is the node `x` after an operation of the receive side: the new receive state and transit queue, the events, and the
counters that it has raised by 1 each (R110 to R121). -/
structure State.Receives (x : State) (r : Receiving) (q : List TransitPacket) (ev : EventUnit) (counted : List CounterName)
    (y : State) : Prop where
  frame : y = { x with service := { x.service with receiving := r, transit := q }, events := ev, counters := y.counters
                       choices := y.choices }
  counter : ∀ k : CounterName, y.counters[k.index] =
    if k ∈ counted then raise16 x.counters[k.index] else x.counters[k.index]

section
variable {x y z : State} {r r' : Receiving} {q q' : List TransitPacket} {ev ev' : EventUnit} {ks ks' : List CounterName}

theorem State.Receives.refl (x : State) : State.Receives x x.service.receiving x.service.transit x.events [] x :=
  ⟨rfl, fun k => by simp⟩

theorem State.Receives.trans (h : State.Receives x r q ev ks y) (h' : State.Receives y r' q' ev' ks' z)
    (hd : ∀ k ∈ ks', k ∉ ks) : State.Receives x r' q' ev' (ks' ++ ks) z := by
  refine ⟨?_, fun k => ?_⟩
  · rw [h'.frame, h.frame]
  · rw [h'.counter, h.counter]
    by_cases hk' : k ∈ ks'
    · rw [if_pos hk', if_neg (hd k hk'), if_pos (List.mem_append_left _ hk')]
    · rw [if_neg hk']
      simp only [List.mem_append, hk', false_or]

theorem State.Receives.service (h : State.Receives x r q ev ks y) :
    y.service = { x.service with receiving := r, transit := q } := by rw [h.frame]

theorem State.Receives.receiving (h : State.Receives x r q ev ks y) : y.service.receiving = r := by rw [h.service]

theorem State.Receives.transit (h : State.Receives x r q ev ks y) : y.service.transit = q := by rw [h.service]

theorem State.Receives.events (h : State.Receives x r q ev ks y) : y.events = ev := by rw [h.frame]

/-! ### Storing, counting and recording -/

theorem State.Receives.stored (h : State.Receives x r q ev ks y) (r' : Receiving) (q' : List TransitPacket) :
    State.Receives x r' q' ev ks (State.withReceive y r' q') := by
  refine ⟨?_, h.counter⟩
  rw [State.withReceive, h.frame]

theorem State.Receives.counted (h : State.Receives x r q ev ks y) {c : CounterName} (hc : c ∉ ks) :
    State.Receives x r q ev (c :: ks) (State.count y c) := by
  refine ⟨?_, fun k => ?_⟩
  · rw [State.count, h.frame]
  · rw [State.count_counter, h.counter]
    by_cases hk : k = c
    · subst hk; rw [if_pos rfl, if_neg hc, if_pos List.mem_cons_self]
    · simp only [hk, if_false, List.mem_cons, false_or]

theorem State.Receives.posted (h : State.Receives x r q ev ks y) (k : EventKind) (src : Option WatchId) (val : Option Sample) :
    State.Receives x r q (EventUnit.post x.aligner.flywheel.superframe x.engine.address k src val ev) ks
      (State.post y k src val) := by
  refine ⟨?_, h.counter⟩
  rw [State.post, h.frame]

theorem State.Receives.drawn (h : State.Receives x r q ev ks y) : State.Receives x r q ev ks (State.draw y) := by
  refine ⟨?_, h.counter⟩
  rw [State.draw, h.frame]

theorem State.withReceive_receives (x : State) (r : Receiving) (q : List TransitPacket) :
    State.Receives x r q x.events [] (State.withReceive x r q) := (State.Receives.refl x).stored r q

end

/-! ### Aborting (R112, R121) -/

/-- The transit queue once the packet in progress has been aborted (R121). -/
def ServiceChannel.left (c : ServiceChannel) : List TransitPacket :=
  match c.receiving with
  | .nothing => c.transit
  | .consume _ => c.transit
  | .copyForward _ => changeNewest c.transit TransitPacket.abandoned
  | .forward => changeNewest c.transit TransitPacket.abandoned

theorem changeNewest_abandoned (queue : List TransitPacket) (p : TransitPacket) :
    changeNewest (queue ++ [p]) TransitPacket.abandoned =
      if p.forwarded = 0 then queue else queue ++ [{ p with mark := .aborted }] := by
  rw [changeNewest_append, TransitPacket.abandoned]
  split <;> simp

section
variable (x : State)

theorem State.abortReceive_receives :
    State.Receives x .nothing (ServiceChannel.left x.service) x.events [] (State.abortReceive x) := by
  unfold State.abortReceive ServiceChannel.left
  cases hr : x.service.receiving with
  | nothing =>
    have := State.Receives.refl x
    rwa [hr] at this
  | consume a => exact State.withReceive_receives x _ _
  | copyForward a => exact State.withReceive_receives x _ _
  | forward => exact State.withReceive_receives x _ _

/-- What an abort for a cause this node detects counts (R110, R111, R113). -/
def ServiceChannel.aborts (c : ServiceChannel) : List CounterName := if c.receiving = .nothing then [] else [.serviceAborts]

theorem State.abortCounted_receives :
    State.Receives x .nothing (ServiceChannel.left x.service) x.events (ServiceChannel.aborts x.service)
      (State.abortCounted x) := by
  have habort := State.abortReceive_receives x
  refine ⟨?_, fun k => ?_⟩
  · have hservice := State.abortCounted_service x
    rw [habort.service] at hservice
    have hframe := State.abortCounted_frame x
    rw [hservice] at hframe
    rw [hframe]
  · rw [State.abortCounted_counter, ServiceChannel.aborts]
    by_cases hr : x.service.receiving = .nothing <;> simp [hr]

theorem State.transitOverflow_receives :
    State.Receives x .nothing (ServiceChannel.left x.service)
      (EventUnit.post x.aligner.flywheel.superframe x.engine.address .transitOverflow none none x.events) [.transitOverflows]
      (State.transitOverflow x) := by
  exact ((State.abortReceive_receives x).counted List.not_mem_nil).posted .transitOverflow none none

end

/-! ### The segments of a packet (R111, R114 to R117, R120) -/

/-- What an overflow posts (R120). -/
def State.overflowed (x : State) : EventUnit :=
  EventUnit.post x.aligner.flywheel.superframe x.engine.address .transitOverflow none none x.events

section
variable {x : State} {octets : List Octet}

theorem State.transitOverflow_of_idle (h : x.service.receiving = .nothing) :
    State.Receives x .nothing x.service.transit (State.overflowed x) [.transitOverflows] (State.transitOverflow x) := by
  have hleft : ServiceChannel.left x.service = x.service.transit := by simp only [ServiceChannel.left, h]
  exact hleft ▸ State.transitOverflow_receives x

theorem ServiceChannel.fits_iff (c : ServiceChannel) (n : Nat) :
    ServiceChannel.fits c n = true ↔ transitTotal c.transit + n ≤ 256 := decide_eq_true_iff

theorem State.takeFirst_consumes (h : State.disposition x (octets.getD 0 0#8) = .consume) :
    State.Receives x (.consume octets) x.service.transit x.events [] (State.takeFirst x octets) := by
  simp only [State.takeFirst, h]
  exact State.withReceive_receives x _ _

/-- The receive state of a packet that enters the transit queue (R114). -/
def Disposition.forwarding (d : Disposition) (octets : List Octet) : Receiving :=
  match d with
  | .copyAndForward => .copyForward octets
  | .forward => .forward
  | .consume => .consume octets

theorem State.takeFirst_fits {d : Disposition} (h : State.disposition x (octets.getD 0 0#8) = d) (hd : d ≠ .consume)
    (hf : transitTotal x.service.transit + octets.length ≤ 256) :
    State.Receives x (Disposition.forwarding d octets) (x.service.transit ++ [TransitPacket.opened octets]) x.events []
      (State.takeFirst x octets) := by
  have hfits := (ServiceChannel.fits_iff x.service octets.length).2 hf
  cases d with
  | consume => exact absurd rfl hd
  | copyAndForward => simp only [State.takeFirst, h, hfits, if_true]; exact State.withReceive_receives x _ _
  | forward => simp only [State.takeFirst, h, hfits, if_true]; exact State.withReceive_receives x _ _

theorem State.takeFirst_overflows (hi : x.service.receiving = .nothing)
    (h : State.disposition x (octets.getD 0 0#8) ≠ .consume) (hf : ¬transitTotal x.service.transit + octets.length ≤ 256) :
    State.Receives x .nothing x.service.transit (State.overflowed x) [.transitOverflows] (State.takeFirst x octets) := by
  have hfull : ServiceChannel.fits x.service octets.length = false :=
    Bool.eq_false_iff.2 (mt (ServiceChannel.fits_iff _ _).1 hf)
  have hover := State.transitOverflow_of_idle hi
  cases hd : State.disposition x (octets.getD 0 0#8) with
  | consume => exact absurd hd h
  | copyAndForward => simp only [State.takeFirst, hd, hfull, Bool.false_eq_true, if_false]; exact hover
  | forward => simp only [State.takeFirst, hd, hfull, Bool.false_eq_true, if_false]; exact hover

theorem State.storeTransit_fits (r : Receiving) (hf : transitTotal x.service.transit + octets.length ≤ 256) :
    State.Receives x r (changeNewest x.service.transit (TransitPacket.grown octets)) x.events []
      (State.storeTransit x r octets) := by
  rw [State.storeTransit, if_pos ((ServiceChannel.fits_iff _ _).2 hf)]
  exact State.withReceive_receives x _ _

theorem State.storeTransit_overflows (r : Receiving) (hf : ¬transitTotal x.service.transit + octets.length ≤ 256) :
    State.Receives x .nothing (ServiceChannel.left x.service) (State.overflowed x) [.transitOverflows]
      (State.storeTransit x r octets) := by
  rw [State.storeTransit, if_neg (mt (ServiceChannel.fits_iff _ _).1 hf)]
  exact State.transitOverflow_receives x

/-! #### A later segment by the receive state (R111, R115, R116) -/

theorem State.takeMore_idle (h : x.service.receiving = .nothing) : State.takeMore x octets = x := by
  simp only [State.takeMore, h]

theorem State.takeMore_consumes {a : List Octet} (h : x.service.receiving = .consume a) (hl : a.length + octets.length ≤ 64) :
    State.Receives x (.consume (a ++ octets)) x.service.transit x.events [] (State.takeMore x octets) := by
  simp only [State.takeMore, h, Nat.not_lt.2 hl, if_false]
  exact State.withReceive_receives x _ _

theorem State.takeMore_drops {a : List Octet} (h : x.service.receiving = .consume a) (hl : 64 < a.length + octets.length) :
    State.Receives x .nothing x.service.transit x.events [.badPackets] (State.takeMore x octets) := by
  simp only [State.takeMore, h, hl, if_true]
  exact (State.withReceive_receives x _ _).counted List.not_mem_nil

theorem State.takeMore_forward (h : x.service.receiving = .forward) :
    State.takeMore x octets = State.storeTransit x .forward octets := by
  simp only [State.takeMore, h]

theorem State.takeMore_copies {a : List Octet} (h : x.service.receiving = .copyForward a)
    (hl : a.length + octets.length ≤ 64) :
    State.takeMore x octets = State.storeTransit x (.copyForward (a ++ octets)) octets := by
  simp only [State.takeMore, h, Nat.not_lt.2 hl, if_false]

/-- A copy past 64 octets is dropped and counted, and the packet goes on as forwarded (R116). -/
theorem State.takeMore_copyDropped {a : List Octet} (h : x.service.receiving = .copyForward a)
    (hl : 64 < a.length + octets.length) (hf : transitTotal x.service.transit + octets.length ≤ 256) :
    State.Receives x .forward (changeNewest x.service.transit (TransitPacket.grown octets)) x.events [.badPackets]
      (State.takeMore x octets) := by
  have hfits := (ServiceChannel.fits_iff x.service octets.length).2 hf
  simp only [State.takeMore, h, hl, hfits, Bool.true_or, if_true]
  have hcounted := ((State.Receives.refl x).counted (c := .badPackets) List.not_mem_nil).drawn
  exact hcounted.trans (State.storeTransit_fits (x := State.draw (State.count x .badPackets)) .forward hf)
    (fun k hk => absurd hk List.not_mem_nil)

/-- A segment that overflows the copy and the queue: whether the copy is counted too is free (log entry 8). -/
theorem State.takeMore_overflowsBoth {a : List Octet} (h : x.service.receiving = .copyForward a)
    (hl : 64 < a.length + octets.length) (hf : ¬transitTotal x.service.transit + octets.length ≤ 256) :
    State.Receives x .nothing (ServiceChannel.left x.service) (State.overflowed x) [.transitOverflows] (State.takeMore x octets) ∨
      State.Receives x .nothing (ServiceChannel.left x.service) (State.overflowed x) [.transitOverflows, .badPackets]
        (State.takeMore x octets) := by
  have hfull : ServiceChannel.fits x.service octets.length = false :=
    Bool.eq_false_iff.2 (mt (ServiceChannel.fits_iff _ _).1 hf)
  simp only [State.takeMore, h, hl, hfull, Bool.false_or, if_true]
  cases Config.assemblyTestedFirst x.choices with
  | true =>
    have hcounted := ((State.Receives.refl x).counted (c := .badPackets) List.not_mem_nil).drawn
    exact .inr (hcounted.trans (State.storeTransit_overflows (x := State.draw (State.count x .badPackets)) .forward hf)
      (by decide))
  | false =>
    exact .inl ((State.Receives.refl x).drawn.trans (State.transitOverflow_receives (State.draw x)) (fun k _ => List.not_mem_nil))

end

/-! ### Completion and delivery (R117 to R119) -/

theorem Packet.namedKind_request_iff (p : Packet) : Packet.namedKind p = some .request ↔ p.kind &&& 0x0F#8 = 0x01#8 := by
  rw [← BitVec.toNat_inj]
  unfold Packet.namedKind
  generalize (p.kind &&& 0x0F#8).toNat = n
  split <;> simp_all

theorem Packet.namedKind_ack_iff (p : Packet) : Packet.namedKind p = some .ack ↔ p.kind &&& 0x0F#8 = 0x04#8 := by
  rw [← BitVec.toNat_inj]
  unfold Packet.namedKind
  generalize (p.kind &&& 0x0F#8).toNat = n
  split <;> simp_all

section
variable {x : State} {a : List Octet} {rt : Bool} {p : Packet}

theorem State.deliverConsumed_bad (h : Packet.ofOctets a = none) : State.deliverConsumed x a rt = State.count x .badPackets := by
  simp only [State.deliverConsumed, h]

theorem State.deliverCopy_bad (h : Packet.ofOctets a = none) : State.deliverCopy x a rt = State.count x .badPackets := by
  simp only [State.deliverCopy, h]

/-- A consumed packet of another kind has no effect (R118). -/
theorem State.deliverConsumed_other (h : Packet.ofOctets a = some p) (hr : Packet.namedKind p ≠ some .request)
    (ha : Packet.namedKind p ≠ some .ack) : State.deliverConsumed x a rt = x := by
  simp only [State.deliverConsumed, h]
  split
  · next hk => exact absurd hk hr
  · next hk => exact absurd hk ha
  all_goals rfl

theorem State.deliverCopy_other (h : Packet.ofOctets a = some p) (hr : Packet.namedKind p ≠ some .request) :
    State.deliverCopy x a rt = x := by
  simp only [State.deliverCopy, h]
  split
  · next hk => exact absurd hk hr
  all_goals rfl

theorem State.deliverConsumed_request (h : Packet.ofOctets a = some p) (hr : Packet.namedKind p = some .request) :
    State.deliverConsumed x a rt = State.arrive x
      { packet := p, cls := .addressed, superframe := x.aligner.flywheel.superframe, ringTime := rt } := by
  simp only [State.deliverConsumed, h, hr]

theorem State.deliverConsumed_ack (h : Packet.ofOctets a = some p) (ha : Packet.namedKind p = some .ack) :
    State.deliverConsumed x a rt =
      { x with events := EventUnit.takeAck x.engine.address p.operation p.sequence x.events } := by
  simp only [State.deliverConsumed, h, ha]

theorem State.deliverCopy_request (h : Packet.ofOctets a = some p) (hr : Packet.namedKind p = some .request) :
    State.deliverCopy x a rt = State.arrive
      { x with service := { x.service with
          nextRequest := x.service.nextRequest + 1
          transit := changeNewest x.service.transit (TransitPacket.reporting x.service.nextRequest) } }
      { packet := p, cls := .broadcast x.service.nextRequest false, superframe := x.aligner.flywheel.superframe
        ringTime := rt } := by
  simp only [State.deliverCopy, h, hr]

theorem State.completePacket_idle (h : x.service.receiving = .nothing) : State.completePacket x rt = x := by
  simp only [State.completePacket, h]

theorem State.completePacket_forward (h : x.service.receiving = .forward) :
    State.completePacket x rt =
      State.withReceive x .nothing (changeNewest x.service.transit TransitPacket.completed) := by
  simp only [State.completePacket, h]

theorem State.completePacket_consume (h : x.service.receiving = .consume a) :
    State.completePacket x rt = State.deliverConsumed (State.withReceive x .nothing x.service.transit) a rt := by
  simp only [State.completePacket, h]

theorem State.completePacket_copy (h : x.service.receiving = .copyForward a) :
    State.completePacket x rt =
      State.deliverCopy (State.withReceive x .nothing (changeNewest x.service.transit TransitPacket.completed)) a rt := by
  simp only [State.completePacket, h]

end

/-! ### Requests leave the service channel alone (R133 to R143) -/

theorem Executed.service {s t : State} (h : Executed s t) : t.service = s.service := by
  cases h <;> rfl

theorem State.handle_service (s : State) (r : Request) : (State.handle s r).service = s.service := by
  have hanswer (u : State) : (answer r u).after.service = u.service := (answer_fits u r).executed.service
  unfold State.handle
  show (match r.cls with | .addressed => _ | .broadcast _ _ => _ : State).service = _
  split
  · unfold State.handleAddressed
    split
    · split
      · unfold State.answerFromCache; split <;> rfl
      · exact hanswer s
    · exact hanswer s
  · unfold State.handleBroadcast
    split
    · rfl
    · show (State.recordRefusal _ _ _).service = _
      rw [State.recordRefusal_eq]
      exact hanswer _

theorem State.take_service (s : State) : (State.take s).service = s.service := by
  unfold State.take
  split
  · split
    · exact State.handle_service _ _
    · rfl
  · rfl

theorem State.arrive_service (s : State) (r : Request) : (State.arrive s r).service = s.service := by
  rcases State.arrive_eq s r with ⟨-, he⟩ | ⟨-, -, ⟨-, he⟩ | ⟨-, he⟩⟩
  · rw [he]
  · rw [he]; rfl
  · rw [he, State.take_service]; rfl

end Sys2Proof.Machine

/-! SUPPORT. A segment in a good frame (R110 to R121): what a first and a later segment come to, and the settlement of O19. -/

namespace Sys2Proof.Machine

set_option Elab.async false

/-! ### The disposition of a packet (R114) -/

/-- The node consumes a packet with this destination octet, which is no broadcast (R114). -/
def State.claims (s : State) (d : Octet) : Prop :=
  if d.getLsbD 6 then s.aligner.position = some (stationValue d) else s.engine.address = some (stationValue d)

section
variable {s : State} {d : Octet}

theorem State.disposition_broadcast (h : stationValue d = 63#6) : State.disposition s d = .copyAndForward := if_pos h

theorem State.disposition_claimed (h : stationValue d ≠ 63#6) (hc : State.claims s d) : State.disposition s d = .consume := by
  rw [State.disposition, if_neg h, stationIsPosition]
  cases hp : d.getLsbD 6 <;> simp only [State.claims, hp, Bool.false_eq_true, if_true, if_false] at hc
  · rw [if_neg Bool.false_ne_true, if_pos hc]
  · rw [if_pos rfl, if_pos hc]

theorem State.disposition_others (h : stationValue d ≠ 63#6) (hc : ¬State.claims s d) : State.disposition s d = .forward := by
  rw [State.disposition, if_neg h, stationIsPosition]
  cases hp : d.getLsbD 6 <;> simp only [State.claims, hp, Bool.false_eq_true, if_true, if_false] at hc
  · rw [if_neg Bool.false_ne_true, if_neg hc]
  · rw [if_pos rfl, if_neg hc]

end

/-! ### A first segment (R111, R114, R115, R120) -/

theorem ServiceChannel.not_mem_aborts {c : ServiceChannel} {k : CounterName} (h : k ≠ .serviceAborts) :
    k ∉ ServiceChannel.aborts c := by
  unfold ServiceChannel.aborts
  split <;> simp [h]

theorem State.Receives.overflowed {x y : State} {r : Receiving} {q : List TransitPacket} {ks : List CounterName}
    (h : State.Receives x r q x.events ks y) : State.overflowed y = State.overflowed x := by
  rw [State.overflowed, h.frame]; rfl

section
variable {x : State} {octets : List Octet} {rt : Bool} {d : Disposition}
  (hd : State.disposition (State.abortCounted x) (octets.getD 0 0#8) = d)
include hd

theorem State.start_consumes (hc : d = .consume) :
    State.Receives x (.consume octets) (ServiceChannel.left x.service) x.events (ServiceChannel.aborts x.service)
      (State.takeFirst (State.abortCounted x) octets) := by
  have habort := State.abortCounted_receives x
  have := habort.trans (State.takeFirst_consumes (hd.trans hc)) (fun k hk => absurd hk List.not_mem_nil)
  rwa [habort.transit, habort.events] at this

theorem State.start_fits (hc : d ≠ .consume) (hf : transitTotal (ServiceChannel.left x.service) + octets.length ≤ 256) :
    State.Receives x (Disposition.forwarding d octets) (ServiceChannel.left x.service ++ [TransitPacket.opened octets]) x.events
      (ServiceChannel.aborts x.service) (State.takeFirst (State.abortCounted x) octets) := by
  have habort := State.abortCounted_receives x
  have := habort.trans (State.takeFirst_fits hd hc (by rw [habort.transit]; exact hf)) (fun k hk => absurd hk List.not_mem_nil)
  rwa [habort.transit, habort.events] at this

theorem State.start_overflows (hc : d ≠ .consume) (hf : ¬transitTotal (ServiceChannel.left x.service) + octets.length ≤ 256) :
    State.Receives x .nothing (ServiceChannel.left x.service) (State.overflowed x)
      (.transitOverflows :: ServiceChannel.aborts x.service) (State.takeFirst (State.abortCounted x) octets) := by
  have habort := State.abortCounted_receives x
  have := habort.trans (State.takeFirst_overflows habort.receiving (hd ▸ hc) (by rw [habort.transit]; exact hf))
    (fun k hk => by rw [List.mem_singleton.1 hk]; exact ServiceChannel.not_mem_aborts (by decide))
  rwa [habort.transit, habort.overflowed] at this

/-! #### A SINGLE segment completes what it begins -/

theorem State.single_consumes (hc : d = .consume) (hn : Packet.ofOctets octets = none) :
    State.Receives x .nothing (ServiceChannel.left x.service) x.events (.badPackets :: ServiceChannel.aborts x.service)
      (State.completePacket (State.takeFirst (State.abortCounted x) octets) rt) := by
  have hstart := State.start_consumes hd hc
  rw [State.completePacket_consume hstart.receiving, State.deliverConsumed_bad hn, hstart.transit]
  exact (hstart.stored _ _).counted (ServiceChannel.not_mem_aborts (by decide))

theorem State.single_forwards (hc : d = .forward) (hf : transitTotal (ServiceChannel.left x.service) + octets.length ≤ 256) :
    State.Receives x .nothing (ServiceChannel.left x.service ++ [{ TransitPacket.opened octets with mark := .complete }]) x.events
      (ServiceChannel.aborts x.service) (State.completePacket (State.takeFirst (State.abortCounted x) octets) rt) := by
  subst hc
  have hstart := State.start_fits hd (by decide) hf
  rw [State.completePacket_forward hstart.receiving, hstart.transit, changeNewest_append]
  exact hstart.stored _ _

theorem State.single_copies (hc : d = .copyAndForward) (hn : Packet.ofOctets octets = none)
    (hf : transitTotal (ServiceChannel.left x.service) + octets.length ≤ 256) :
    State.Receives x .nothing (ServiceChannel.left x.service ++ [{ TransitPacket.opened octets with mark := .complete }]) x.events
      (.badPackets :: ServiceChannel.aborts x.service)
      (State.completePacket (State.takeFirst (State.abortCounted x) octets) rt) := by
  subst hc
  have hstart := State.start_fits hd (by decide) hf
  rw [State.completePacket_copy hstart.receiving, State.deliverCopy_bad hn, hstart.transit, changeNewest_append]
  exact (hstart.stored _ _).counted (ServiceChannel.not_mem_aborts (by decide))

theorem State.single_overflows (hc : d ≠ .consume) (hf : ¬transitTotal (ServiceChannel.left x.service) + octets.length ≤ 256) :
    State.Receives x .nothing (ServiceChannel.left x.service) (State.overflowed x)
      (.transitOverflows :: ServiceChannel.aborts x.service)
      (State.completePacket (State.takeFirst (State.abortCounted x) octets) rt) := by
  have hstart := State.start_overflows hd hc hf
  rwa [State.completePacket_idle hstart.receiving]

end

/-- Three octets are no packet (R117, R131). -/
theorem Packet.ofOctets_short {octets : List Octet} (h : octets.length ≤ 3) : Packet.ofOctets octets = none := by
  have hlength : lengthTest octets = false := by
    unfold lengthTest
    simp only [Bool.and_eq_false_iff, decide_eq_false_iff_not]
    left; omega
  simp only [Packet.ofOctets, hlength, Bool.false_and, Bool.false_eq_true, if_false]

/-! ### A later segment (R111, R115 to R119) -/

section
variable {x : State} {octets a : List Octet} {rt : Bool} {queue : List TransitPacket} {p : TransitPacket}

/-- The newest packet with a segment's octets (R120). -/
abbrev TransitPacket.grownBy (p : TransitPacket) (octets : List Octet) : TransitPacket := { p with held := p.held ++ octets }

theorem changeNewest_grown (queue : List TransitPacket) (p : TransitPacket) (octets : List Octet) :
    changeNewest (queue ++ [p]) (TransitPacket.grown octets) = queue ++ [TransitPacket.grownBy p octets] := by
  rw [changeNewest_append]; rfl

theorem changeNewest_completed (queue : List TransitPacket) (p : TransitPacket) :
    changeNewest (queue ++ [p]) TransitPacket.completed = queue ++ [{ p with mark := .complete }] := by
  rw [changeNewest_append]; rfl

theorem State.middle_forwards (hr : x.service.receiving = .forward) (hq : x.service.transit = queue ++ [p])
    (hf : transitTotal x.service.transit + octets.length ≤ 256) :
    State.Receives x .forward (queue ++ [TransitPacket.grownBy p octets]) x.events [] (State.takeMore x octets) := by
  have := State.storeTransit_fits .forward hf
  rwa [hq, changeNewest_grown, ← State.takeMore_forward hr] at this

theorem State.middle_copies (hr : x.service.receiving = .copyForward a) (hq : x.service.transit = queue ++ [p])
    (hl : a.length + octets.length ≤ 64) (hf : transitTotal x.service.transit + octets.length ≤ 256) :
    State.Receives x (.copyForward (a ++ octets)) (queue ++ [TransitPacket.grownBy p octets]) x.events []
      (State.takeMore x octets) := by
  have := State.storeTransit_fits (.copyForward (a ++ octets)) hf
  rwa [hq, changeNewest_grown, ← State.takeMore_copies hr hl] at this

theorem State.middle_copyDropped (hr : x.service.receiving = .copyForward a) (hq : x.service.transit = queue ++ [p])
    (hl : 64 < a.length + octets.length) (hf : transitTotal x.service.transit + octets.length ≤ 256) :
    State.Receives x .forward (queue ++ [TransitPacket.grownBy p octets]) x.events [.badPackets] (State.takeMore x octets) := by
  have := State.takeMore_copyDropped hr hl hf
  rwa [hq, changeNewest_grown] at this

/-- A later segment that does not fit the queue takes its packet with it; where it overflows the copy too, that may be counted
(log entry 8). -/
theorem State.middle_overflows (hr : x.service.receiving = .forward ∨ x.service.receiving = .copyForward a)
    (hf : ¬transitTotal x.service.transit + octets.length ≤ 256) :
    State.Receives x .nothing (ServiceChannel.left x.service) (State.overflowed x) [.transitOverflows] (State.takeMore x octets) ∨
      (x.service.receiving = .copyForward a ∧ 64 < a.length + octets.length ∧
        State.Receives x .nothing (ServiceChannel.left x.service) (State.overflowed x) [.transitOverflows, .badPackets]
          (State.takeMore x octets)) := by
  rcases hr with hr | hr
  · rw [State.takeMore_forward hr]
    exact .inl (State.storeTransit_overflows _ hf)
  · by_cases hl : a.length + octets.length ≤ 64
    · rw [State.takeMore_copies hr hl]
      exact .inl (State.storeTransit_overflows _ hf)
    · exact (State.takeMore_overflowsBoth hr (by omega) hf).imp id fun h => ⟨hr, by omega, h⟩

/-! #### An END completes the packet -/

theorem State.ending_forwards {y : State} {ks : List CounterName}
    (h : State.Receives x .forward (queue ++ [TransitPacket.grownBy p octets]) x.events ks y) :
    State.Receives x .nothing (queue ++ [{ TransitPacket.grownBy p octets with mark := .complete }]) x.events ks
      (State.completePacket y rt) := by
  rw [State.completePacket_forward h.receiving, h.transit, changeNewest_completed]
  exact h.stored _ _

/-- The completion of a consumed packet is its delivery (R117, R118). -/
theorem State.ending_consumed (hr : x.service.receiving = .consume a) (hl : a.length + octets.length ≤ 64) :
    State.completePacket (State.takeMore x octets) rt =
      State.deliverConsumed (State.withReceive x .nothing x.service.transit) (a ++ octets) rt := by
  have hmore := State.takeMore_consumes hr hl
  have hsame : State.takeMore x octets = State.withReceive x (.consume (a ++ octets)) x.service.transit := by
    simp only [State.takeMore, hr, Nat.not_lt.2 hl, if_false]
  rw [State.completePacket_consume hmore.receiving, hsame]
  rfl

/-- The completion of a copied packet is its delivery, its forwarded copy being complete (R117 to R119). -/
theorem State.ending_copied (hr : x.service.receiving = .copyForward a) (hq : x.service.transit = queue ++ [p])
    (hl : a.length + octets.length ≤ 64) (hf : transitTotal x.service.transit + octets.length ≤ 256) :
    State.completePacket (State.takeMore x octets) rt =
      State.deliverCopy (State.withReceive x .nothing (queue ++ [{ TransitPacket.grownBy p octets with mark := .complete }]))
        (a ++ octets) rt := by
  have hmore := State.middle_copies hr hq hl hf
  have hsame : State.takeMore x octets = State.withReceive x (.copyForward (a ++ octets)) (queue ++ [TransitPacket.grownBy p octets]) := by
    rw [State.takeMore_copies hr hl, State.storeTransit, if_pos ((ServiceChannel.fits_iff _ _).2 hf), hq, changeNewest_grown]
  rw [State.completePacket_copy hmore.receiving, hmore.transit, changeNewest_completed, hsame]
  rfl

end

/-! ### The good frame around the segment (R28) -/

section
variable {s : State} {f : Frame} (h : State.TakesAsGood s f) (hq : State.PassesQuietly s f)
include h hq

/-- The segment is received before or after the other blocks take the frame, which find nothing to do before it. -/
theorem State.classify_served :
    let v := State.receiveSegment (State.draw (State.taken s f)) f.service (!f.uf)
    let watch := State.watchFrame s.ringOut.copyArriving (!f.uf) f
    let fire := State.fireSwitch (!f.uf)
    State.classify s f = v ∨ State.classify s f = watch v ∨ State.classify s f = fire v ∨
      State.classify s f = watch (fire v) ∨ State.classify s f = fire (watch v) := by
  intro v watch fire
  have hgood := State.classOf_good h
  have htaken := State.taken_frame s f
  obtain ⟨hf, hw⟩ := hq.rests (x := State.draw (State.taken s f))
    (by rw [State.draw_watches, htaken, State.settleChoice_frame]) (by rw [State.draw_mapStore, htaken, State.settleChoice_frame])
    (State.taken_number h) s.ringOut.copyArriving
  have hv : State.serveFrame true (!f.uf) f (State.draw (State.taken s f)) = v := rfl
  rw [State.classify_eq, if_pos hgood, State.handedOn, hgood, State.ringTimeOf_good h]
  simp only [State.handOn, decide_true, hf, hw, hv]
  split
  · exact .inl rfl
  · exact .inr (.inl rfl)
  · exact .inl rfl
  · exact .inr (.inr (.inl rfl))
  · exact .inr (.inr (.inr (.inl rfl)))
  · exact .inr (.inr (.inr (.inr rfl)))

/-- Neither the Map Store nor the Watch Unit touches the service channel. -/
theorem State.classify_service :
    (State.classify s f).service =
      (State.receiveSegment (State.draw (State.taken s f)) f.service (!f.uf)).service := by
  have hfire (x : State) : (State.fireSwitch (!f.uf) x).service = x.service := by rw [State.fireSwitch_frame]
  have hwatch (x : State) : (State.watchFrame s.ringOut.copyArriving (!f.uf) f x).service = x.service := by
    rw [State.watchFrame_frame]
  rcases State.classify_served h hq with he | he | he | he | he <;> rw [he]
  · rw [hwatch]
  · rw [hfire]
  · rw [hwatch, hfire]
  · rw [hfire, hwatch]

/-- What the receive side leaves of a good frame, where no block but it changes anything. -/
theorem State.classify_of_rests {v : State}
    (hv : State.receiveSegment (State.draw (State.taken s f)) f.service (!f.uf) = v) (hw : v.watches = s.watches)
    (hm : v.mapStore = s.mapStore) (hn : v.aligner.flywheel = f.number) : State.classify s f = v := by
  obtain ⟨hfire, hwatch⟩ := hq.rests hw hm hn s.ringOut.copyArriving
  exact State.classify_quiet h hq hv hfire hwatch

theorem State.classify_receives {r : Receiving} {q : List TransitPacket} {ev : EventUnit} {ks : List CounterName} {v : State}
    (hv : State.receiveSegment (State.draw (State.taken s f)) f.service (!f.uf) = v)
    (hreceives : State.Receives (State.draw (State.taken s f)) r q ev ks v) : State.classify s f = v := by
  have htaken := State.taken_frame s f
  refine State.classify_of_rests h hq hv ?_ ?_ ?_
  · rw [hreceives.frame, State.draw_watches, htaken, State.settleChoice_frame]
  · rw [hreceives.frame, State.draw_mapStore, htaken, State.settleChoice_frame]
  · rw [hreceives.frame]; exact State.taken_number h

end

end Sys2Proof.Machine

namespace Sys2Proof.Proofs

open Sys2Proof Sys2Proof.Machine

set_option Elab.async false

/-- Settles O19: each kind of segment by the receive state, on the node that the frame has taught. -/
theorem segmentsJoinTheirPacket : Obligations.SegmentsJoinTheirPacket := by
  intro s f octets queue p h hq htransit sf value ours dropped left aborts fitsLeft fits opened grown
  obtain ⟨hr, ha, -⟩ := id h
  have hexec : exec (.frameClassified f) s = .next (State.classify s f) := takenWhen_next hr (by rw [ha]; rfl) _
  obtain ⟨ev, htaught, htaken⟩ := State.taken_of_good h
  refine ⟨State.settleChoice s, State.classify s f, ev, State.settleChoice_settled s, htaught, hexec, ?_⟩
  intro overflowed now leaves
  have hsettled := State.settleChoice_frame s
  have hservice : (State.draw (State.taken s f)).service = (State.settleChoice s).service := by rw [htaken]; rfl
  have hevents : (State.draw (State.taken s f)).events = ev := by rw [htaken]; rfl
  have hreceiving : (State.draw (State.taken s f)).service.receiving = s.service.receiving := by rw [hservice, hsettled]
  have hqueue : (State.draw (State.taken s f)).service.transit = s.service.transit := by rw [hservice, hsettled]
  have hnext : (State.draw (State.taken s f)).service.nextRequest = s.service.nextRequest := by rw [hservice, hsettled]
  have hoverflowed : State.overflowed (State.draw (State.taken s f)) = overflowed := by
    rw [State.overflowed, hevents, State.draw_aligner, State.taken_number h, State.draw_engine, htaken, hsettled]
  have hcounters (k : CounterName) (hk : k ≠ .markedFrames) :
      (State.draw (State.taken s f)).counters[k.index] = s.counters[k.index] := by
    rw [State.draw_counters, htaken]
    show (if f.em then (State.count s .markedFrames).counters else s.counters)[k.index] = _
    split
    · rw [State.count_counter, if_neg hk]
    · rfl
  have hclaims : State.claims (State.abortCounted (State.draw (State.taken s f))) (octets.getD 0 0#8) ↔ ours := by
    rw [State.claims, State.abortCounted_frame, htaken, hsettled]
    exact Iff.rfl
  have hserved := State.classify_service h hq
  have hreceives {r : Receiving} {q : List TransitPacket} {ev' : EventUnit} {ks : List CounterName} {v : State}
      (hv : State.receiveSegment (State.draw (State.taken s f)) f.service (!f.uf) = v)
      (hv' : State.Receives (State.draw (State.taken s f)) r q ev' ks v) : leaves (now r q) ev' ks := by
    have hclassify := State.classify_receives h hq hv hv'
    refine ⟨?_, ?_, fun k hk => ?_⟩
    · rw [hclassify, hv'.service, hservice]
    · rw [hclassify, hv'.events]
    · rw [hclassify, hv'.counter, hcounters k hk]
  generalize State.draw (State.taken s f) = x at *
  have hleft : ServiceChannel.left x.service = left := by
    unfold ServiceChannel.left
    rw [hreceiving, hqueue]
    simp only [left]
    cases hrec : s.service.receiving with
    | nothing => rfl
    | consume a => rfl
    | copyForward a => simp only [htransit (.inr ⟨a, hrec⟩), changeNewest_abandoned]; rfl
    | forward => simp only [htransit (.inl hrec), changeNewest_abandoned]; rfl
  have haborts : ServiceChannel.aborts x.service = aborts := by rw [ServiceChannel.aborts, hreceiving]
  have hkept (hv : State.receiveSegment x f.service (!f.uf) = x) : leaves (State.settleChoice s).service ev [] := by
    have := hreceives hv (State.Receives.refl x)
    rwa [hevents, show now x.service.receiving x.service.transit = (State.settleChoice s).service by rw [hservice]] at this
  have hstart (hseg : Segment.read f.service = some (.start, octets)) :
      State.receiveSegment x f.service (!f.uf) = State.takeFirst (State.abortCounted x) octets := by
    simp only [State.receiveSegment, hseg]
  have hsingle (hseg : Segment.read f.service = some (.single, octets)) :
      State.receiveSegment x f.service (!f.uf) =
        State.completePacket (State.takeFirst (State.abortCounted x) octets) (!f.uf) := by
    simp only [State.receiveSegment, hseg]
  have hmiddle (hseg : Segment.read f.service = some (.middle, octets)) :
      State.receiveSegment x f.service (!f.uf) = State.takeMore x octets := by
    simp only [State.receiveSegment, hseg]
  have hending (hseg : Segment.read f.service = some (.ending, octets)) :
      State.receiveSegment x f.service (!f.uf) = State.completePacket (State.takeMore x octets) (!f.uf) := by
    simp only [State.receiveSegment, hseg]
  refine ⟨fun hseg => ?idle, fun hseg => ?abort, fun hseg => ?malformed, fun hseg hd hf => ?overflow, fun hseg => ?start,
    fun hseg => ?single, fun hseg => ?later, fun hseg => ?middle, fun hseg => ?ending⟩
  case idle => exact hkept (by simp only [State.receiveSegment, hseg])
  case abort =>
    have habort := State.abortReceive_receives x
    rw [hleft, hevents] at habort
    exact hreceives (by simp only [State.receiveSegment, hseg]) habort
  case malformed =>
    have habort := State.abortCounted_receives x
    rw [hleft, haborts, hevents] at habort
    exact hreceives (by simp only [State.receiveSegment, hseg]) habort
  case overflow =>
    obtain ⟨d, hne, hdisposition⟩ : ∃ d, d ≠ .consume ∧ State.disposition (State.abortCounted x) (octets.getD 0 0#8) = d := by
      by_cases hv : value = 63#6
      · exact ⟨_, by decide, State.disposition_broadcast hv⟩
      · exact ⟨_, by decide, State.disposition_others hv (mt hclaims.1 (hd.resolve_left hv))⟩
    have hfull : ¬transitTotal (ServiceChannel.left x.service) + octets.length ≤ 256 := by rw [hleft]; exact hf
    rcases hseg with hseg | hseg
    · have hover := State.start_overflows hdisposition hne hfull
      rw [hleft, haborts, hoverflowed] at hover
      exact hreceives (hstart hseg) hover
    · have hover := State.single_overflows (rt := !f.uf) hdisposition hne hfull
      rw [hleft, haborts, hoverflowed] at hover
      exact hreceives (hsingle hseg) hover
  case start =>
    refine ⟨fun hv ho => ?_, fun hv ho hf => ?_, fun hv hf => ?_⟩
    · have := State.start_consumes (State.disposition_claimed hv (hclaims.2 ho)) rfl
      rw [hleft, haborts, hevents] at this
      exact hreceives (hstart hseg) this
    · have := State.start_fits (State.disposition_others hv (mt hclaims.1 ho)) (by decide) (by rw [hleft]; exact hf)
      rw [hleft, haborts, hevents] at this
      exact hreceives (hstart hseg) this
    · have := State.start_fits (State.disposition_broadcast hv) (by decide) (by rw [hleft]; exact hf)
      rw [hleft, haborts, hevents] at this
      exact hreceives (hstart hseg) this
  case single =>
    have hnone := Packet.ofOctets_short (Segment.read_octets hseg).1
    refine ⟨fun hv ho => ?_, fun hv ho hf => ?_, fun hv hf => ?_⟩
    · have := State.single_consumes (rt := !f.uf) (State.disposition_claimed hv (hclaims.2 ho)) rfl hnone
      rw [hleft, haborts, hevents] at this
      exact hreceives (hsingle hseg) this
    · have := State.single_forwards (rt := !f.uf) (State.disposition_others hv (mt hclaims.1 ho)) rfl (by rw [hleft]; exact hf)
      rw [hleft, haborts, hevents] at this
      exact hreceives (hsingle hseg) this
    · have := State.single_copies (rt := !f.uf) (State.disposition_broadcast hv) rfl hnone (by rw [hleft]; exact hf)
      rw [hleft, haborts, hevents] at this
      exact hreceives (hsingle hseg) this
  case later =>
    have hends {q : List TransitPacket} {ev' : EventUnit} {ks : List CounterName}
        (hmore : State.Receives x .nothing q ev' ks (State.takeMore x octets)) : leaves (now .nothing q) ev' ks := by
      rcases hseg with hseg | hseg
      · exact hreceives (hmiddle hseg) hmore
      · exact hreceives ((hending hseg).trans (State.completePacket_idle hmore.receiving)) hmore
    refine ⟨fun hrec => hkept ?_, fun a hrec hl => ?_, fun hrec hf => ?_, fun a hrec hf => ?_⟩
    · have hidle := State.takeMore_idle (octets := octets) (hreceiving.trans hrec)
      rcases hseg with hseg | hseg
      · rw [hmiddle hseg, hidle]
      · rw [hending hseg, hidle, State.completePacket_idle (hreceiving.trans hrec)]
    · have := State.takeMore_drops (hreceiving.trans hrec) hl
      rw [hqueue, hevents] at this
      exact hends this
    · have hdropped : left = dropped := by simp only [left, hrec]
      have hover := (State.middle_overflows (a := []) (octets := octets) (.inl (hreceiving.trans hrec))
        (by rw [hqueue]; exact hf)).resolve_right fun ⟨hcopy, _⟩ => nomatch (hreceiving.trans hrec).symm.trans hcopy
      rw [hleft, hdropped, hoverflowed] at hover
      exact hends hover
    · have hdropped : left = dropped := by simp only [left, hrec]
      have hover := State.middle_overflows (octets := octets) (.inr (hreceiving.trans hrec)) (by rw [hqueue]; exact hf)
      rw [hleft, hdropped, hoverflowed] at hover
      exact hover.imp hends fun ⟨_, hl, hboth⟩ => ⟨hl, hends hboth⟩
  case middle =>
    refine ⟨fun a hrec hl => ?_, fun hrec hf => ?_, fun a hrec hf => ⟨fun hl => ?_, fun hl => ?_⟩⟩
    · have := State.takeMore_consumes (hreceiving.trans hrec) hl
      rw [hqueue, hevents] at this
      exact hreceives (hmiddle hseg) this
    · have := State.middle_forwards (hreceiving.trans hrec) (hqueue.trans (htransit (.inl hrec))) (by rw [hqueue]; exact hf)
      rw [hevents] at this
      exact hreceives (hmiddle hseg) this
    · have := State.middle_copies (hreceiving.trans hrec) (hqueue.trans (htransit (.inr ⟨a, hrec⟩))) hl (by rw [hqueue]; exact hf)
      rw [hevents] at this
      exact hreceives (hmiddle hseg) this
    · have := State.middle_copyDropped (hreceiving.trans hrec) (hqueue.trans (htransit (.inr ⟨a, hrec⟩))) hl
        (by rw [hqueue]; exact hf)
      rw [hevents] at this
      exact hreceives (hmiddle hseg) this
  case ending =>
    refine ⟨fun hrec hf => ?_, fun a hrec hf hl => ?_, fun a hl => ⟨fun hrec => ?_, fun hrec hf => ?_⟩⟩
    · have := State.ending_forwards (rt := !f.uf)
        (State.middle_forwards (hreceiving.trans hrec) (hqueue.trans (htransit (.inl hrec))) (by rw [hqueue]; exact hf))
      rw [hevents] at this
      exact hreceives (hending hseg) this
    · have := State.ending_forwards (rt := !f.uf)
        (State.middle_copyDropped (hreceiving.trans hrec) (hqueue.trans (htransit (.inr ⟨a, hrec⟩))) hl (by rw [hqueue]; exact hf))
      rw [hevents] at this
      exact hreceives (hending hseg) this
    · have hdelivered := (hending hseg).trans (State.ending_consumed (rt := !f.uf) (hreceiving.trans hrec) hl)
      have hstored := State.withReceive_receives x .nothing x.service.transit
      refine ⟨fun hnone => ?_, fun packet hpacket hrequest hack => ?_⟩
      · have := hstored.counted (c := .badPackets) List.not_mem_nil
        rw [← State.deliverConsumed_bad (rt := !f.uf) hnone, hqueue, hevents] at this
        rw [hqueue] at hdelivered
        exact hreceives hdelivered this
      · rw [State.deliverConsumed_other hpacket (mt (Packet.namedKind_request_iff _).1 hrequest)
          (mt (Packet.namedKind_ack_iff _).1 hack)] at hdelivered
        rw [hevents] at hstored
        rw [hqueue] at hstored hdelivered
        exact hreceives hdelivered hstored
    · have hdelivered := (hending hseg).trans (State.ending_copied (rt := !f.uf) (hreceiving.trans hrec)
        (hqueue.trans (htransit (.inr ⟨a, hrec⟩))) hl (by rw [hqueue]; exact hf))
      have hstored := State.withReceive_receives x .nothing (queue ++ [{ TransitPacket.grownBy p octets with mark := .complete }])
      rw [hevents] at hstored
      refine ⟨fun hnone => ?_, fun packet hpacket => ⟨fun hrequest => ?_, fun hrequest => ?_⟩⟩
      · rw [State.deliverCopy_bad hnone] at hdelivered
        exact hreceives hdelivered (hstored.counted List.not_mem_nil)
      · rw [State.deliverCopy_other hpacket (mt (Packet.namedKind_request_iff _).1 hrequest)] at hdelivered
        exact hreceives hdelivered hstored
      · rw [State.deliverCopy_request hpacket ((Packet.namedKind_request_iff _).2 hrequest)] at hdelivered
        rw [hserved, hdelivered, State.arrive_service]
        have hnumber : (State.settleChoice s).service.nextRequest = s.service.nextRequest := by rw [hsettled]
        simp only [State.withReceive, changeNewest_append, hservice, hnumber]
        rfl

end Sys2Proof.Proofs

/-! SUPPORT. An ACK at the Event Unit (R162, R167): the class it names, the notifier it wakes, and the settlement of O21. -/

namespace Sys2Proof.Machine

set_option Elab.async false

/-! ### What an ACK matches (R162) -/

section
variable (ev : EventUnit) (o q : Octet)

theorem EventUnit.ackMatch_of {c : ClassId} {v : InService} (ho : o = BitVec.ofNat 8 c.val) (hv : ev.service[c] = some v)
    (hq : v.packet.sequence = q) : EventUnit.ackMatch ev o q = some (c, v) := by
  have hnumber : o.toNat = c.val := by rw [ho]; exact Nat.mod_eq_of_lt (by omega)
  have hlt : o.toNat < 8 := hnumber ▸ c.isLt
  have hclass : (⟨o.toNat, hlt⟩ : ClassId) = c := Fin.ext hnumber
  rw [EventUnit.ackMatch, dif_pos hlt]
  simp only [hclass, hv, hq, if_true]

theorem EventUnit.ackMatch_none
    (h : ∀ (c : ClassId) (v : InService), o = BitVec.ofNat 8 c.val → ev.service[c] = some v → v.packet.sequence ≠ q) :
    EventUnit.ackMatch ev o q = none := by
  refine Option.eq_none_iff_forall_ne_some.2 fun ⟨c, v⟩ hm => ?_
  obtain ⟨hv, hq, hc⟩ := EventUnit.ackMatch_some ev o q c v hm
  exact h c v (BitVec.eq_of_toNat_eq (by rw [← hc]; exact (Nat.mod_eq_of_lt (by omega)).symm)) hv hq

end

/-! ### The notifier (R167) -/

section
variable (address : Option (BitVec 6)) (ev : EventUnit)

theorem EventUnit.leaveQuiet_eq :
    EventUnit.leaveQuiet address ev = { ev with notifier := if address = none then ev.notifier else .active } := by
  unfold EventUnit.leaveQuiet
  cases address with
  | none => simp
  | some a => cases hn : ev.notifier <;> simp [← hn]

/-- The test of R157 changes neither the notifier, nor the queues, nor the counts of lost records. -/
theorem EventUnit.test_queues :
    (EventUnit.test address ev).notifier = ev.notifier ∧ (EventUnit.test address ev).queues = ev.queues ∧
      (EventUnit.test address ev).lost = ev.lost := by
  rcases EventUnit.test_cases address ev with e | ⟨c, v, -, -, -, -, e⟩ | ⟨c, a, -, -, -, -, -, e⟩ <;> rw [e] <;>
    exact ⟨rfl, rfl, rfl⟩

variable {address ev}

/-- A class that is not in service enters it with a notification that the test has just built (R158). -/
theorem EventUnit.test_service {c : ClassId} (hc : ev.service[c] = none) {w : InService}
    (hw : (EventUnit.test address ev).service[c] = some w) :
    w.packet.sequence = ev.notifySequence ∧ w.retries = 0 ∧ w.timer = none := by
  rcases EventUnit.test_cases address ev with e | ⟨d, v, -, -, hv, -, e⟩ | ⟨d, a, -, -, -, -, -, e⟩
  · rw [e, hc] at hw; cases hw
  · have hd : d ≠ c := fun h => by rw [h, hc] at hv; cases hv
    rw [e] at hw
    simp only [Vector.set_fin, hd, if_false] at hw
    rw [hc] at hw; cases hw
  · rw [e, EventUnit.build_eq] at hw
    by_cases hd : d = c
    · subst hd
      simp only [Vector.set_fin, if_true, Option.some.injEq] at hw
      subst hw
      exact ⟨rfl, rfl, rfl⟩
    · simp only [Vector.set_fin, hd, if_false] at hw
      rw [hc] at hw; cases hw

end

end Sys2Proof.Machine

namespace Sys2Proof.Proofs

open Sys2Proof Sys2Proof.Machine

set_option Elab.async false

/-- Settles O21: the ACK reaches the Event Unit alone, so that the other blocks find nothing to do; then by what it matches. -/
theorem ackFreesTheCarriedRecords : Obligations.AckFreesTheCarriedRecords := by
  intro s f a octets p h hq hseg hrec hoctets hparams hack woken
  obtain ⟨hr, ha, -⟩ := id h
  have hexec : exec (.frameClassified f) s = .next (State.classify s f) := takenWhen_next hr (by rw [ha]; rfl) _
  obtain ⟨ev, htaught, htaken⟩ := State.taken_of_good h
  have hsettled := State.settleChoice_frame s
  have hpacket : Packet.ofOctets (a ++ octets) = some p := by rw [hoctets]; exact Packet.ofOctets_octets hparams
  have hlength : a.length + octets.length ≤ 64 := by
    rw [← List.length_append, hoctets, Packet.length_octets]; omega
  have hservice : (State.draw (State.taken s f)).service = (State.settleChoice s).service := by rw [htaken]; rfl
  have hevents : (State.draw (State.taken s f)).events = ev := by rw [htaken]; rfl
  have hengine : (State.draw (State.taken s f)).engine = s.engine := by rw [State.draw_engine, htaken, hsettled]
  have hwatches : (State.draw (State.taken s f)).watches = s.watches := by rw [State.draw_watches, htaken, hsettled]
  have hmap : (State.draw (State.taken s f)).mapStore = s.mapStore := by rw [State.draw_mapStore, htaken, hsettled]
  have hnumber := State.taken_number h
  have hreceived : State.receiveSegment (State.draw (State.taken s f)) f.service (!f.uf) =
      { State.draw (State.taken s f) with
        service := { (State.settleChoice s).service with receiving := .nothing }
        events := EventUnit.takeAck s.engine.address p.operation p.sequence ev } := by
    have hconsume : (State.draw (State.taken s f)).service.receiving = .consume a := by rw [hservice, hsettled]; exact hrec
    simp only [State.receiveSegment, hseg]
    rw [State.ending_consumed hconsume hlength, State.deliverConsumed_ack hpacket ((Packet.namedKind_ack_iff p).2 hack),
      State.withReceive]
    simp only [hservice, hevents, hengine]
  have hclassify := State.classify_of_rests h hq hreceived hwatches hmap hnumber
  refine ⟨State.settleChoice s, State.classify s f, ev, State.settleChoice_settled s, htaught, hexec, ?_⟩
  have hafter : (State.classify s f).events = EventUnit.takeAck s.engine.address p.operation p.sequence ev := by rw [hclassify]
  have hwoken (e : EventUnit) : EventUnit.leaveQuiet s.engine.address e = woken e := EventUnit.leaveQuiet_eq _ e
  have hkeeps (e : EventUnit) := EventUnit.test_queues s.engine.address (woken e)
  refine ⟨by rw [hclassify], by rw [hclassify]; exact hengine, ?_, fun hnone => ?_, fun c v hc hv hs => ?_⟩
  · rw [hafter, EventUnit.takeAck, hwoken, (hkeeps _).1]
    split <;> rfl
  · rw [hafter, EventUnit.takeAck, EventUnit.ackMatch_none ev _ _ hnone, hwoken]
  · have hmatch : (State.classify s f).events = EventUnit.test s.engine.address (woken (EventUnit.acknowledge ev c v)) := by
      rw [hafter, EventUnit.takeAck, EventUnit.ackMatch_of ev _ _ hc hv hs, hwoken]
    have hslot := EventUnit.acknowledge_slotOf ev c v
    refine ⟨?_, ?_, ?_, fun w hw => ?_⟩
    · rw [hmatch, ← hslot]
      rfl
    · rw [hmatch, (hkeeps _).2.1]; rfl
    · rw [hmatch, (hkeeps _).2.2]; rfl
    · have hfreed : (woken (EventUnit.acknowledge ev c v)).service[c] = none := by
        show (ev.service.set c none)[c] = none
        simp
      rw [hmatch] at hw
      exact EventUnit.test_service hfreed hw

end Sys2Proof.Proofs

/-! SUPPORT. A broadcast that completes while a READ_STATUS waits (R119, R133, R136, R181): the status shows the octets held in the
transit queue, which the last segment of the broadcast has just raised, and the refutation of O20. -/

namespace Sys2Proof.Machine

set_option Elab.async false

/-! ### The last status octet (R181) -/

/-- The low octet of the octets that a transit queue holds (R181). -/
def heldOctet (transit : List TransitPacket) : Octet :=
  (BitVec.ofNat 16 (transit.map fun p => p.held.length).sum).extractLsb' 0 8

theorem State.statusOctets_last (s : State) : (State.statusOctets s).getLast? = some (heldOctet s.service.transit) := by
  simp only [State.statusOctets, octets16, List.getLast?_append]
  rfl

/-! ### A READ_STATUS at the head of the queue (R136, R139) -/

/-- An arrival offers the queue for taking, and the READ_STATUS at its head shows the transit queue as it stands then. -/
theorem State.arrive_showsTransit {y : State} {first r : Request} (hq : y.engine.requests = [first])
    (hp : y.engine.resetPending = none) (hl : y.engine.replies = []) (hc : y.engine.replyCache = none)
    (hf : first.cls = .addressed) (hop : first.packet.operation = 0x03#8) (hparams : first.packet.params = [])
    (hd : Request.discardedBroadcast r = false) (hn : Engine.holdsDuplicate y.engine r = false) :
    (State.arrive y r).engine.replyCache.map (fun p => p.params.getLast?) = some (some (heldOctet y.service.transit)) := by
  have hread : answer first (State.queued (State.joined y r) [r]) =
      ⟨.ok, State.statusOctets (State.queued y [r]), State.queued y [r]⟩ := by
    have hnamed : operationOf first.packet.operation = some .readStatus := by rw [hop]; rfl
    simp only [answer, hnamed, answerReadStatus, hparams, List.isEmpty_nil, if_true]
    rfl
  have hqueue : (State.joined y r).engine.requests = first :: [r] := by rw [State.joined_requests, hq]; rfl
  have hmay : Engine.mayTake (State.joined y r).engine first = true :=
    (Engine.mayTake_iff _ first).2 ⟨hp, fun _ => by rw [State.joined_replies, hl]; exact Nat.zero_lt_succ 3⟩
  have hmiss : Engine.cacheMisses (State.queued (State.joined y r) [r]).engine first.packet.sequence = true := by
    show y.engine.replyCache.all _ = true
    rw [hc]; rfl
  have htake : State.take (State.joined y r) = State.handle (State.queued (State.joined y r) [r]) first := by
    rw [State.take]
    simp only [hqueue, hmay, if_true]
  have hlength : y.engine.requests.length ≤ 3 := by rw [hq]; exact Nat.le_add_left 1 2
  rw [State.arrive_joins hd hn hlength, htake, State.handle_addressed hf, State.handleAddressed_misses hmiss, hread]
  refine congrArg some ((List.getLast?_cons_of_ne_nil ?_).trans (State.statusOctets_last _))
  exact List.ne_nil_of_length_pos (by rw [State.statusOctets_length]; decide)

/-! ### The counterexample -/

namespace StatusWaits

/-- A READ_STATUS of the host at address 1, which waits at the head of the queue. -/
def status : Request :=
  { packet := { destination := 0x02#8, source := 0x01#8, kind := 0x01#8, sequence := 0x07#8, operation := 0x03#8, params := [] }
    cls := .addressed, superframe := 0#16, ringTime := false }

/-- A broadcast CANCEL_SWITCH. -/
def cancel : Packet :=
  { destination := 0x3F#8, source := 0x01#8, kind := 0x01#8, sequence := 0x08#8, operation := 0x0A#8, params := [] }

/-- The octets of the broadcast that have come, and those that its END brings. -/
def begun : List Octet := (Packet.octets cancel).take 5
def last : List Octet := (Packet.octets cancel).drop 5

/-- The forwarded copy of the broadcast so far. -/
def copy : TransitPacket := { held := begun, forwarded := 0, mark := .incomplete, request := none }

/-- An ALIGNED node at which READ_STATUS waits and may be taken, with all of the broadcast but its last three octets received. -/
def node : State :=
  { State.reset with
    resetN := true
    aligner := { State.reset.aligner with align := .aligned }
    engine := { State.reset.engine with requests := [status] }
    service := { State.reset.service with receiving := .copyForward begun, transit := [copy] } }

/-- A good frame with UF 1 and a given segment. -/
def frame (g : Segment) : Frame :=
  Frame.sealed { sync := 0x9C7#12, number := successor node.aligner.flywheel, hop := 1#6, uf := true, em := false, service := g
                 payload := Vector.replicate 48 0#24, check := 0#16 }

theorem frame_good (g : Segment) : State.TakesAsGood node (frame g) :=
  ⟨rfl, rfl, rfl, (of_decide_eq_true (Frame.sealed_checkPasses _)).symm, rfl⟩

theorem octets_rejoined : begun ++ last = Packet.octets cancel := List.take_append_drop 5 _

theorem length_octets : (Packet.octets cancel).length = 8 := Packet.length_octets cancel

theorem length_begun : begun.length = 5 := by rw [begun, List.length_take, length_octets]; rfl

theorem length_last : last.length = 3 := by rw [last, List.length_drop, length_octets]

theorem frame_uf (g : Segment) : (frame g).uf = true := rfl

/-- The last octet of the cached reply (R137). -/
def cachedLast (s : State) : Option (Option Octet) := s.engine.replyCache.map fun p => p.params.getLast?

theorem heldOctet_of (p : TransitPacket) : heldOctet [p] = (BitVec.ofNat 16 p.held.length).extractLsb' 0 8 := rfl

/-- What a good frame leaves of the node before its segment is received. -/
theorem taken_engine {f : Frame} (h : State.TakesAsGood node f) :
    (State.draw (State.taken node f)).engine = node.engine ∧
      (State.draw (State.taken node f)).service.receiving = .copyForward begun ∧
      (State.draw (State.taken node f)).service.transit = [copy] := by
  obtain ⟨ev, -, htaken⟩ := State.taken_of_good h
  have hsettled := State.settleChoice_frame node
  refine ⟨?_, ?_, ?_⟩
  · rw [State.draw_engine, htaken, hsettled]
  · rw [State.draw_service, htaken, hsettled]; rfl
  · rw [State.draw_service, htaken, hsettled]; rfl

/-- The arrival of the broadcast offers READ_STATUS for taking. -/
theorem arrival_showsTransit {y : State} (he : y.engine = node.engine) {n : Nat} {sf : Superframe} {rt : Bool} :
    cachedLast (State.arrive y { packet := cancel, cls := .broadcast n false, superframe := sf, ringTime := rt }) =
      some (some (heldOctet y.service.transit)) :=
  State.arrive_showsTransit (first := status) (by rw [he]; rfl) (by rw [he]; rfl) (by rw [he]; rfl) (by rw [he]; rfl) rfl rfl rfl rfl
    (by rw [he]; rfl)

theorem heldOctet_whole (p : TransitPacket) (h : p.held = begun ++ last) : heldOctet [p] = 0x08#8 := by
  rw [heldOctet_of, h, octets_rejoined, length_octets]; rfl

theorem heldOctet_begun : heldOctet [copy] = 0x05#8 := by
  rw [heldOctet_of]
  show (BitVec.ofNat 16 begun.length).extractLsb' 0 8 = _
  rw [length_begun]; rfl

theorem fits : transitTotal [copy] + last.length ≤ 256 := by
  show begun.length + 0 + last.length ≤ 256
  rw [length_begun, length_last]; decide

section
variable {f : Frame} (h : State.TakesAsGood node f) (hf : f.uf = true)
include h hf

/-- The frame that completes the broadcast has READ_STATUS answered with 8 octets in the transit queue. -/
theorem cached_behind_frame (hs : Segment.read f.service = some (.ending, last)) {t : State}
    (ht : exec (.frameClassified f) node = .next t) : cachedLast t = some (some 0x08#8) := by
  have hquiet : (!f.uf) = false := by rw [hf]; rfl
  obtain ⟨hengine, hreceiving, htransit⟩ := taken_engine h
  have hclassify := State.classify_quiet (v := State.receiveSegment _ _ _) h (.inl hf) rfl
    (State.fireSwitch_quiet _ _ (.inl hquiet)) (State.watchFrame_quiet _ _ _ _ (.inl hquiet))
  rw [← Host.Outcome.next.inj ((takenWhen_next rfl rfl (State.classify node f)).symm.trans ht), hclassify]
  generalize State.draw (State.taken node f) = x at hengine hreceiving htransit ⊢
  have hreceived : State.receiveSegment x f.service (!f.uf) = State.completePacket (State.takeMore x last) false := by
    simp only [State.receiveSegment, hs, hquiet]
  have hcancel : Packet.ofOctets (begun ++ last) = some cancel := by rw [octets_rejoined]; exact Packet.ofOctets_octets (Nat.zero_le _)
  rw [hreceived, State.ending_copied (queue := []) (p := copy) hreceiving htransit (by rw [length_begun, length_last]; decide)
    (by rw [htransit]; exact fits), State.deliverCopy_request hcancel rfl]
  refine (arrival_showsTransit ?_).trans (congrArg (fun o => some (some o))
    (heldOctet_whole { copy with held := begun ++ last, mark := .complete, request := some x.service.nextRequest } rfl))
  exact hengine

/-- Behind the frame with the IDLE segment, the command has READ_STATUS answered with 5 octets in the transit queue. -/
theorem cached_behind_command (hs : Segment.read f.service = some (.idle, [])) {u v : State} {d : Delivery} {sf : Superframe}
    {rt : Bool} (hd : d = { form := .broadcast, source := 0x01#8, sequence := 0x08#8, superframe := sf, ringTime := rt })
    (hu : exec (.frameClassified f) node = .next u)
    (hv : exec (.cancelSwitch d []) { u with service := { u.service with receiving := .nothing } } = .next v) :
    cachedLast v = some (some 0x05#8) := by
  obtain ⟨hengine, -, htransit⟩ := taken_engine h
  have htaken : u = State.draw (State.taken node f) := by
    rw [← State.classify_quiet_idle h hs (.inl hf)]
    exact Host.Outcome.next.inj (hu.symm.trans (takenWhen_next rfl rfl _))
  have hr : u.resetN = true := by rw [htaken, State.taken_frame, State.settleChoice_frame]; rfl
  rw [← htaken] at hengine htransit
  have hdelivered (y : State) (hy : y.resetN = true) : State.deliver y d .cancelSwitch [] = State.arrive (State.numbered y)
      { packet := cancel, cls := .broadcast y.service.nextRequest false, superframe := sf, ringTime := rt } := by
    rw [State.deliver_broadcast hy (by rw [hd]) (Nat.zero_le _), hd]; rfl
  rw [Host.Outcome.next.inj (hv.symm.trans (exec_of_deliveredBy rfl _)),
    hdelivered { u with service := { u.service with receiving := .nothing } } hr]
  refine (arrival_showsTransit ?_).trans (congrArg (fun o => some (some o)) ?_)
  · exact hengine
  · exact (congrArg heldOctet htransit).trans heldOctet_begun

end

theorem frame_idle (g : Segment) :
    frame idleSegment = { frame g with service := ⟨0#8, 0#8, 0#8, 0#8⟩, check := (frame idleSegment).check } := by
  simp only [frame, Frame.sealed, idleSegment]

end StatusWaits

end Sys2Proof.Machine

namespace Sys2Proof.Proofs

open Sys2Proof Sys2Proof.Machine Sys2Proof.Machine.StatusWaits

set_option Elab.async false

/-- Refutes O20: a READ_STATUS waits, and the frame with UF 1 that completes a broadcast CANCEL_SWITCH offers it for taking. Its
reply counts 8 octets in the transit queue there, with the three that the frame brought, and 5 behind the frame with the IDLE
segment and the command. -/
theorem not_requestInFramesIsTheCommand : ¬Obligations.RequestInFramesIsTheCommand := by
  intro h
  have hsegment : Segment.read (frame (Segment.build .ending last)).service = some (.ending, last) :=
    Segment.read_build length_last.le (by rw [length_last]; rfl)
  have hidle : Segment.read (frame idleSegment).service = some (.idle, []) := by decide
  have hf := frame_good (Segment.build .ending last)
  have hg := frame_good idleSegment
  obtain ⟨hcommand, -⟩ := h node (frame (Segment.build .ending last)) (frame idleSegment) begun last hf (.inl (frame_uf _))
    (fun hu => Bool.noConfusion ((frame_uf _).symm.trans hu)) (frame_idle _) hg.2.2.2.1 hsegment
  obtain ⟨-, hbroadcast⟩ := hcommand [] .cancelSwitch .broadcast 0x3F#8 0x01#8 0x08#8 _ (Nat.zero_le _) rfl octets_rejoined
  obtain ⟨t, u, v, ht, hu, hv, hagree, -⟩ := hbroadcast [] copy rfl rfl rfl rfl fits
  have hsame : cachedLast t = cachedLast v := by rw [hagree (.inl (frame_uf _))]; rfl
  rw [cached_behind_frame hf (frame_uf _) hsegment ht, cached_behind_command hg (frame_uf _) hidle rfl hu hv] at hsame
  exact absurd hsame (by decide)

end Sys2Proof.Proofs

/-! SUPPORT. The emitted frame mark (R33, R85, R163): what it leaves of the watchdog, the stores and the retry timers. -/

namespace Sys2Proof.Machine

set_option Elab.async false

/-! ### The retry timers (R163, R164) -/

theorem EventUnit.expiryDue_eq_true {ev : EventUnit} {c : ClassId} :
    EventUnit.expiryDue ev c = true ↔ ∃ v, ev.service[c] = some v ∧ v.timer = some 0 := by
  unfold EventUnit.expiryDue
  cases ev.service[c] <;> simp

theorem EventUnit.lowerTimers_eq (ev : EventUnit) : EventUnit.lowerTimers ev = { ev with
    service := Vector.ofFn fun c : ClassId => ev.service[c].map fun v => { v with timer := v.timer.map (· - 1) } } := by
  refine congrArg (fun g => { ev with service := Vector.ofFn g }) (funext fun c => ?_)
  cases ev.service[c] <;> rfl

theorem EventUnit.lowerTimers_class (ev : EventUnit) (c : ClassId) :
    (EventUnit.lowerTimers ev).service[c] = ev.service[c].map fun v => { v with timer := v.timer.map (· - 1) } := by
  rw [EventUnit.lowerTimers_eq]
  simp

/-- A class whose lowered timer stands at 0 had it at 0 or at 1. -/
theorem EventUnit.expiryDue_lowered {ev : EventUnit} {c : ClassId} (h : EventUnit.expiryDue (EventUnit.lowerTimers ev) c = true) :
    ∃ v, ev.service[c] = some v ∧ (v.timer = some 0 ∨ v.timer = some 1) := by
  obtain ⟨w, hw, ht⟩ := EventUnit.expiryDue_eq_true.1 h
  rw [EventUnit.lowerTimers_class] at hw
  obtain ⟨v, hv, rfl⟩ := Option.map_eq_some_iff.1 hw
  obtain ⟨n, hn, hzero⟩ : ∃ n, v.timer = some n ∧ n - 1 = 0 := by simpa using ht
  refine ⟨v, hv, ?_⟩
  rw [hn]
  obtain rfl | rfl : n = 0 ∨ n = 1 := by omega
  · exact .inl rfl
  · exact .inr rfl

/-- The test of R157 starts no timer and changes none. -/
theorem EventUnit.test_timer {ev : EventUnit} {address : Option (BitVec 6)} {d : ClassId} {w : InService}
    (h : (EventUnit.test address ev).service[d] = some w) : w.timer = none ∨ ∃ v, ev.service[d] = some v ∧ v.timer = w.timer := by
  rcases EventUnit.test_cases address ev with e | ⟨c, v, -, -, hv, -, e⟩ | ⟨c, a, -, -, -, -, -, e⟩ <;> rw [e] at h
  · exact .inr ⟨w, h, rfl⟩
  · simp only [Vector.set_fin] at h
    split at h
    · next hc => cases h; subst hc; exact .inr ⟨v, hv, rfl⟩
    · exact .inr ⟨w, h, rfl⟩
  · rw [EventUnit.build_eq] at h
    simp only [Vector.set_fin] at h
    split at h
    · cases h; exact .inl rfl
    · exact .inr ⟨w, h, rfl⟩

section
variable (sf : Superframe) (address : Option (BitVec 6)) (emitting : Bool) {ev : EventUnit} {c : ClassId}

theorem EventUnit.expire_of_not_due (h : EventUnit.expiryDue ev c = false) :
    EventUnit.expire sf address emitting c ev = ev := by
  simp only [EventUnit.expire, h, Bool.false_eq_true, if_false]

/-- An expiry stops the timer of its class, and starts none (R164, R166). -/
theorem EventUnit.expire_timer (hdue : EventUnit.expiryDue ev c = true) {d : ClassId} {w : InService}
    (h : (EventUnit.expire sf address emitting c ev).service[d] = some w) :
    w.timer = none ∨ d ≠ c ∧ ∃ v, ev.service[d] = some v ∧ v.timer = w.timer := by
  obtain ⟨v, hv, ht⟩ := EventUnit.expiryDue_eq_true.1 hdue
  have hset {u x : InService} (hu : u.timer = none) (hx : (ev.service.set c (some u))[d] = some x) :
      x.timer = none ∨ d ≠ c ∧ ∃ v, ev.service[d] = some v ∧ v.timer = x.timer := by
    rw [Vector.set_fin] at hx
    split at hx
    · cases hx; exact .inl hu
    · next hne => exact .inr ⟨fun he => hne he.symm, x, hx, rfl⟩
  rw [EventUnit.expire_of_due hv ht] at h
  rcases EventUnit.test_timer h with hnone | ⟨x, hx, hxw⟩
  · exact .inl hnone
  · rw [← hxw]
    split at hx
    · exact hset rfl hx
    · split at hx
      · exact hset rfl hx
      · rw [(EventUnit.goQuiet_service sf ev).1 d] at hx; cases hx

theorem EventUnit.expireDue_of_none (h : ∀ d, EventUnit.expiryDue ev d = false) :
    EventUnit.expireDue sf address emitting ev = ev := by
  unfold EventUnit.expireDue
  generalize ev.order = order
  induction order with
  | nil => rfl
  | cons d rest ih => rw [List.foldl_cons, EventUnit.expire_of_not_due sf address emitting (h d), ih]

/-- Where one class alone is due, its expiry is all that is taken. -/
theorem EventUnit.expireDue_of_one (hc : c ∈ ev.order) (h : ∀ d, d ≠ c → EventUnit.expiryDue ev d = false) :
    EventUnit.expireDue sf address emitting ev = EventUnit.expire sf address emitting c ev := by
  have hrest (is : List ClassId) {e : EventUnit} (he : ∀ d, EventUnit.expiryDue e d = false) :
      is.foldl (fun e c => EventUnit.expire sf address emitting c e) e = e := by
    induction is with
    | nil => rfl
    | cons d rest ih => rw [List.foldl_cons, EventUnit.expire_of_not_due sf address emitting (he d), ih]
  have hafter : EventUnit.expiryDue ev c = true → ∀ d, EventUnit.expiryDue (EventUnit.expire sf address emitting c ev) d = false := by
    refine fun hdue d => Bool.eq_false_iff.2 fun hd => ?_
    obtain ⟨w, hw, ht⟩ := EventUnit.expiryDue_eq_true.1 hd
    rcases EventUnit.expire_timer sf address emitting hdue hw with hn | ⟨hne, v, hv, hvw⟩
    · rw [ht] at hn; cases hn
    · exact Bool.eq_false_iff.1 (h d hne) (EventUnit.expiryDue_eq_true.2 ⟨v, hv, hvw.trans ht⟩)
  unfold EventUnit.expireDue
  generalize ev.order = order at hc
  induction order with
  | nil => cases hc
  | cons d rest ih =>
    rw [List.foldl_cons]
    by_cases hd : d = c
    · subst hd
      cases hdue : EventUnit.expiryDue ev d with
      | true => exact hrest rest (hafter hdue)
      | false =>
        rw [EventUnit.expire_of_not_due sf address emitting hdue]
        refine hrest rest fun e => ?_
        by_cases he : e = d
        · rw [he]; exact hdue
        · exact h e he
    · rw [EventUnit.expire_of_not_due sf address emitting (h d hd)]
      exact ih ((List.mem_cons.1 hc).resolve_left (Ne.symm hd))

/-! ### The mark at the Event Unit (R33, R163) -/

/-- A class whose timer neither stands at 0 nor reaches it at this mark. -/
def EventUnit.restful (ev : EventUnit) (d : ClassId) : Prop :=
  ∀ v, ev.service[d] = some v → v.timer ≠ some 0 ∧ v.timer ≠ some 1

theorem EventUnit.restful.not_due {d : ClassId} (h : EventUnit.restful ev d) : EventUnit.expiryDue ev d = false :=
  Bool.eq_false_iff.2 fun hd => by
    obtain ⟨v, hv, ht⟩ := EventUnit.expiryDue_eq_true.1 hd
    exact (h v hv).1 ht

theorem EventUnit.restful.not_due_lowered {d : ClassId} (h : EventUnit.restful ev d) :
    EventUnit.expiryDue (EventUnit.lowerTimers ev) d = false :=
  Bool.eq_false_iff.2 fun hd => by
    obtain ⟨v, hv, ht⟩ := EventUnit.expiryDue_lowered hd
    exact ht.elim (h v hv).1 (h v hv).2

variable (early : Bool)

theorem EventUnit.mark_of_restful (h : ∀ d, EventUnit.restful ev d) :
    EventUnit.mark sf address emitting early ev = EventUnit.lowerTimers ev := by
  have hdue := EventUnit.expireDue_of_none sf address emitting fun d => (h d).not_due
  have hfallen := EventUnit.expireDue_of_none sf address emitting fun d => (h d).not_due_lowered
  simp only [EventUnit.mark, hdue, hfallen, ite_self]

/-- The timer of one class reaches 0: its expiry follows at once, or is left for RETRY_TIMER_EXPIRY (log entry 26). -/
theorem EventUnit.mark_of_reached (hdue : EventUnit.expiryDue ev c = false) (h : ∀ d, d ≠ c → EventUnit.restful ev d) :
    EventUnit.mark sf address emitting early ev = EventUnit.lowerTimers ev ∨
      EventUnit.mark sf address emitting early ev = EventUnit.expire sf address emitting c (EventUnit.lowerTimers ev) := by
  have hbefore := EventUnit.expireDue_of_none sf address emitting (ev := ev) fun d => by
    by_cases hd : d = c
    · rw [hd]; exact hdue
    · exact (h d hd).not_due
  have hothers (d : ClassId) (hd : d ≠ c) := (h d hd).not_due_lowered
  simp only [EventUnit.mark, hbefore]
  split
  · next hany =>
    obtain ⟨d, hd, hdd⟩ := List.any_eq_true.1 (Bool.and_eq_true _ _ ▸ hany).1
    have hdc : d = c := by
      by_contra hne
      rw [hothers d hne] at hdd; cases hdd
    exact .inr (EventUnit.expireDue_of_one sf address emitting (hdc ▸ hd) hothers)
  · exact .inl rfl

/-- The timer of one class stands at 0 already: its expiry is taken before the timers fall (log entry 11). -/
theorem EventUnit.mark_of_due (hdue : EventUnit.expiryDue ev c = true) (hc : c ∈ ev.order)
    (h : ∀ d, d ≠ c → EventUnit.restful ev d) :
    EventUnit.mark sf address emitting early ev = EventUnit.lowerTimers (EventUnit.expire sf address emitting c ev) := by
  have hbefore := EventUnit.expireDue_of_one sf address emitting hc fun d hd => (h d hd).not_due
  have hafter (d : ClassId) : EventUnit.restful (EventUnit.expire sf address emitting c ev) d := fun w hw => by
    rcases EventUnit.expire_timer sf address emitting hdue hw with hn | ⟨hne, v, hv, hvw⟩
    · rw [hn]; exact ⟨nofun, nofun⟩
    · rw [← hvw]; exact h d hne v hv
  have hfallen := EventUnit.expireDue_of_none sf address emitting fun d => (hafter d).not_due_lowered
  simp only [EventUnit.mark, hbefore, hfallen, ite_self]

end

/-! ### The mark at the watchdog (R85) -/

/-- The mark counts at the watchdog (R85, log entry 12). -/
abbrev LocalPort.timed (p : LocalPort) : Prop := p.mode = .external ∧ p.timingLost = false ∧ p.markTaken = false

section
variable {s : State}

theorem State.watchdogMark_untimed (h : ¬LocalPort.timed s.port) :
    State.watchdogMark s = { s with port := { s.port with markTaken := false } } := by
  unfold State.watchdogMark
  cases hk : s.port.markTaken with
  | true => rfl
  | false =>
    have hidle : s.port.mode ≠ .external ∨ s.port.timingLost = true := by
      by_contra hn
      obtain ⟨hm, hl⟩ := not_or.1 hn
      exact h ⟨not_not.1 hm, Bool.eq_false_iff.2 hl, hk⟩
    rw [if_neg Bool.false_ne_true, if_pos hidle, ← hk]

theorem State.watchdogMark_fed (h : LocalPort.timed s.port) (hw : s.port.watchdog ≤ 2) :
    State.watchdogMark s = { s with port := { s.port with watchdog := s.port.watchdog + 1 } } := by
  obtain ⟨hm, hl, hk⟩ := h
  simp only [State.watchdogMark, hm, hl, hk, Bool.false_eq_true, ne_eq, not_true_eq_false, or_self, if_false,
    Nat.not_le.2 (Nat.lt_succ_of_le hw)]

theorem State.watchdogMark_loses (h : LocalPort.timed s.port) (hw : 3 ≤ s.port.watchdog) :
    State.watchdogMark s = State.loseLocalTiming s := by
  obtain ⟨hm, hl, hk⟩ := h
  simp only [State.watchdogMark, hm, hl, hk, Bool.false_eq_true, ne_eq, not_true_eq_false, or_self, if_false, hw, if_true]

/-- What the watchdog posts (R85). -/
theorem State.watchdogMark_events (s : State) :
    (State.watchdogMark s).events =
      if LocalPort.timed s.port ∧ 3 ≤ s.port.watchdog then
        EventUnit.post s.aligner.flywheel.superframe s.engine.address .localTimingLost none none s.events
      else s.events := by
  by_cases ht : LocalPort.timed s.port
  · by_cases hw : 3 ≤ s.port.watchdog
    · rw [if_pos ⟨ht, hw⟩, State.watchdogMark_loses ht hw]; rfl
    · rw [if_neg fun h => hw h.2, State.watchdogMark_fed ht (by omega)]
  · rw [if_neg fun h => ht h.1, State.watchdogMark_untimed ht]

end

/-! ### The mark at the Local Port -/

/-- The node once the mark has been taken at the Event Unit (R163). -/
abbrev State.ticked (u : State) : State :=
  { u with
    events := EventUnit.mark u.aligner.flywheel.superframe u.engine.address (State.notificationEmitting u)
      (Config.expiryBeforeChoice u.choices) u.events }

section
variable {u : State}

theorem State.mark_untimed (h : ¬LocalPort.timed u.port) : (State.mark u).port = { u.port with markTaken := false } :=
  congrArg State.port (State.watchdogMark_untimed (s := State.ticked u) h)

theorem State.mark_fed (h : LocalPort.timed u.port) (hw : u.port.watchdog ≤ 2) :
    (State.mark u).port = { u.port with watchdog := u.port.watchdog + 1 } :=
  congrArg State.port (State.watchdogMark_fed (s := State.ticked u) h hw)

theorem State.mark_loses (h : LocalPort.timed u.port) (hw : 3 ≤ u.port.watchdog) :
    (State.mark u).port = { u.port with
      timingLost := true, watchdog := 4, drop := { state := .stopped, frames := [], last := none }
      add := { state := .stopped, frames := [], last := none }, localFrame := none } :=
  congrArg State.port (State.watchdogMark_loses (s := State.ticked u) h hw)

/-- Below the watchdog's last count the mark leaves the Add Store as it was (R85). -/
theorem State.mark_add (hw : u.port.watchdog < 3) : (State.mark u).port.add = u.port.add := by
  by_cases ht : LocalPort.timed u.port
  · rw [State.mark_fed ht (Nat.le_of_lt_succ hw)]
  · rw [State.mark_untimed ht]

/-- No mark starts a store (R85). -/
theorem State.mark_add_idle (h : u.port.add.state ≠ .running) : (State.mark u).port.add.state ≠ .running := by
  by_cases ht : LocalPort.timed u.port
  · by_cases hw : 3 ≤ u.port.watchdog
    · rw [State.mark_loses ht hw]; exact nofun
    · rw [State.mark_fed ht (by omega)]; exact h
  · rw [State.mark_untimed ht]; exact h

end

/-- What an emitted frame mark is to the statements (R33). -/
theorem State.mark_marked {u : State} (hr : u.resetN = true) : State.Marked u (State.mark u) := by
  unfold State.Marked
  intro timed fallen posted quiet
  have hlowered (ev : EventUnit) : EventUnit.lowerTimers ev = fallen ev := EventUnit.lowerTimers_eq ev
  have hposted : (State.mark u).events = posted (EventUnit.mark u.aligner.flywheel.superframe u.engine.address
      (State.notificationEmitting u) (Config.expiryBeforeChoice u.choices) u.events) := State.watchdogMark_events _
  refine ⟨State.mark_frame u, fun h => ?untimed, fun h hw => ?fed, fun h hw => ?lost, fun h => ?quiet, fun c v hv h => ?due⟩
  case untimed => exact State.mark_untimed h
  case fed => exact State.mark_fed h hw
  case lost => exact State.mark_loses h hw
  case quiet => rw [hposted, EventUnit.mark_of_restful _ _ _ _ h, hlowered]
  case due =>
    refine ⟨fun ht => ?_, fun ht hc => ?_⟩
    · have hnot : EventUnit.expiryDue u.events c = false := Bool.eq_false_iff.2 fun hd => by
        obtain ⟨w, hw, hzero⟩ := EventUnit.expiryDue_eq_true.1 hd
        cases hv.symm.trans hw
        rw [ht] at hzero; cases hzero
      have hreached : EventUnit.expiryDue (fallen u.events) c = true :=
        EventUnit.expiryDue_eq_true.2 ⟨{ v with timer := some 0 }, by
          rw [← hlowered, EventUnit.lowerTimers_class, hv, Option.map_some, ht]; rfl, rfl⟩
      rcases EventUnit.mark_of_reached u.aligner.flywheel.superframe u.engine.address (State.notificationEmitting u)
        (Config.expiryBeforeChoice u.choices) hnot h with he | he
      · exact .inl (by rw [hposted, he, hlowered])
      · refine .inr ⟨_, exec_retryTimerExpiry (s := { u with events := fallen u.events }) hr hreached, ?_⟩
        rw [hposted, he, hlowered]
        rfl
    · have hdue : EventUnit.expiryDue u.events c = true := EventUnit.expiryDue_eq_true.2 ⟨v, hv, ht⟩
      refine ⟨_, exec_retryTimerExpiry hr hdue, ?_⟩
      rw [hposted, EventUnit.mark_of_due _ _ _ _ hdue hc h, hlowered]

end Sys2Proof.Machine

/-! SUPPORT. The start of an emitted frame (R33, R45 to R51, R73, R79, R124): the frame that is placed, the add frame that is read
for it, what the Slot Switch makes of it, and the settlement of O22, O23 and O24. -/

namespace Sys2Proof.Machine

set_option Elab.async false

/-! ### The read of the add frame (R79) -/

section
variable {st : Store}

theorem Store.read_of_idle (idle : Sample) (hs : st.state ≠ .running) :
    Store.read st idle = (st, Vector.replicate 32 idle, false) := by
  cases h : st.state with
  | running => exact absurd h hs
  | stopped => simp only [Store.read, h]; rfl
  | priming => simp only [Store.read, h]; rfl

variable {s : State} {add : LocalSamples}

theorem State.readAdd_of_idle (hs : s.port.add.state ≠ .running) :
    State.readAdd s = (Vector.replicate 32 s.ringOut.idleWord, s) := by
  simp only [State.readAdd, Store.read_of_idle _ hs]; rfl

theorem State.readAdd_of_running {later : List LocalSamples} (hs : s.port.add.state = .running)
    (hf : s.port.add.frames = add :: later) :
    State.readAdd s =
      (add, { s with port := { s.port with add := { state := .running, frames := later, last := some add } } }) := by
  simp only [State.readAdd, Store.read_of_running _ hs hf, hs]; rfl

theorem State.readAdd_of_empty (hs : s.port.add.state = .running) (hf : s.port.add.frames = []) (hl : s.port.add.last = some add) :
    State.readAdd s = (add, State.post (State.count s .addSlips) .addSlip none none) := by
  simp only [State.readAdd, Store.read_of_empty _ hs hf hl]; rfl

end

/-! ### The local frame that ends with the start (R73, R74) -/

/-- The completion of a local frame neither reads nor writes the service channel. -/
theorem State.completeLocalFrame_ofService (s : State) (c : ServiceChannel) (add : LocalSamples) :
    State.completeLocalFrame { s with service := c } add = { State.completeLocalFrame s add with service := c } := by
  unfold State.completeLocalFrame
  simp only
  split
  · unfold State.writeAdd
    simp only
    generalize Store.write s.port.add add = r
    obtain ⟨st, slip⟩ := r
    cases slip <;> rfl
  · rfl

section
variable (u : State)

/-- What the arbiter leaves keeps the port as the mark left it (R124). -/
theorem State.arbitrate_port : (State.arbitrate (State.mark u)).after.port = (State.mark u).port := by
  rw [State.arbitrate_keeps]

/-- A choice that found no own packet ready and gave no segment of one stays open (R124). -/
theorem State.arbitrated_service :
    (State.arbitrated u).service = { (State.arbitrate (State.mark u)).after.service with
      openChoice :=
        if (decide ((State.arbitrate (State.mark u)).part = .neither) && !State.ownReady (State.arbitrate (State.mark u)).after) = true
        then some u.service.waitCount else none } := rfl

/-- At the start of an emitted frame the local frame of FOLLOW ends, if it is in progress, and the next is due (R73). -/
theorem State.followFrameStart_began (hr : u.resetN = true) :
    let z := (State.arbitrate (State.mark u)).after
    let w := State.followFrameStart (State.arbitrated u)
    ∃ x : State,
      (((State.mark u).port.mode = .follow ∧ ∃ lf, (State.mark u).port.localFrame = some lf ∧ lf.edges < 768) →
        ∃ add, exec (.localFrameComplete add) z = .next x) ∧
      (¬((State.mark u).port.mode = .follow ∧ ∃ lf, (State.mark u).port.localFrame = some lf ∧ lf.edges < 768) → x = z) ∧
      w.port = (if x.port.mode = .follow then { x.port with startDue := true } else x.port) ∧ w.events = x.events ∧
      w.counters = x.counters := by
  intro z w
  have hz : z.resetN = true := by simp only [z]; rw [State.arbitrate_keeps, State.mark_frame]; exact hr
  have hport : z.port = (State.mark u).port := State.arbitrate_port u
  have hafter : State.arbitrated u = { z with service := (State.arbitrated u).service } := rfl
  have hprogress := LocalPort.frameInProgress_iff z.port
  rw [← hport]
  by_cases hm : z.port.mode = .follow
  · by_cases hp : LocalPort.frameInProgress z.port = true
    · obtain ⟨add, hadd⟩ : ∃ add, w =
          { State.draw (State.completeLocalFrame (State.arbitrated u) add) with
            port := { (State.completeLocalFrame (State.arbitrated u) add).port with startDue := true } } := by
        refine ⟨Vector.ofFn fun c => Config.ldiUnreported (State.arbitrated u).choices c, ?_⟩
        have hm' : (State.arbitrated u).port.mode = .follow := hm
        have hp' : LocalPort.frameInProgress (State.arbitrated u).port = true := hp
        simp only [w, State.followFrameStart, hm', hp', if_true]
        rfl
      rw [hafter, State.completeLocalFrame_ofService] at hadd
      refine ⟨State.completeLocalFrame z add, fun _ => ⟨add, exec_localFrameComplete hz (by rw [hm]; decide)⟩,
        fun hn => absurd ⟨hm, hprogress.1 hp⟩ hn, ?_, ?_, ?_⟩
      · rw [State.completeLocalFrame_mode, if_pos hm, hadd]
      · rw [hadd]; rfl
      · rw [hadd]; rfl
    · have hw : w = { State.arbitrated u with port := { (State.arbitrated u).port with startDue := true } } := by
        have hm' : (State.arbitrated u).port.mode = .follow := hm
        have hp' : LocalPort.frameInProgress (State.arbitrated u).port = false := Bool.eq_false_iff.2 hp
        simp only [w, State.followFrameStart, hm', hp', if_true, Bool.false_eq_true, if_false]
      refine ⟨z, fun h => absurd (hprogress.2 h.2) hp, fun _ => rfl, ?_, ?_, ?_⟩
      · rw [if_pos hm, hw]; rfl
      · rw [hw]; rfl
      · rw [hw]; rfl
  · have hw : w = State.arbitrated u := if_neg (show ¬(State.arbitrated u).port.mode = .follow from hm)
    refine ⟨z, fun h => absurd h.1 hm, fun _ => rfl, ?_, ?_, ?_⟩
    · rw [if_neg hm, hw]; rfl
    · rw [hw]; rfl
    · rw [hw]; rfl

theorem State.followed_frame :
    State.followFrameStart (State.arbitrated u) = { u with
      port := (State.followFrameStart (State.arbitrated u)).port
      service := (State.arbitrated u).service
      engine := { u.engine with replies := (State.arbitrated u).engine.replies }
      events := (State.followFrameStart (State.arbitrated u)).events
      counters := (State.followFrameStart (State.arbitrated u)).counters
      choices := (State.followFrameStart (State.arbitrated u)).choices } := by
  conv => lhs; rw [State.followFrameStart_frame]
  rw [State.arbitrated_frame]

theorem State.frameRead_frame :
    (State.frameRead u).2 = { u with
      port := (State.frameRead u).2.port
      service := (State.arbitrated u).service
      engine := { u.engine with replies := (State.arbitrated u).engine.replies }
      events := (State.frameRead u).2.events
      counters := (State.frameRead u).2.counters
      choices := (State.frameRead u).2.choices } := by
  unfold State.frameRead
  rw [State.readAdd_frame, State.followed_frame]

end

/-! ### The frame that is placed (R9, R10, R45 to R51) -/

section
variable (u : State) (f : FrameSource)

/-- What the Slot Switch takes for the frame (R45, R46). -/
def State.groomed : Grooming := State.grooming (State.frameRead u).2 f (State.frameRead u).1

theorem State.groomed_eq :
    State.groomed u f =
      { bank := MapStore.activeBank u.mapStore, idle := u.ringOut.idleWord, sound := f.sound, received := f.received
        add := (State.frameRead u).1
        watches := watchesTaken (State.frameRead u).2.choices u.watches f.statusBefore } := by
  rw [State.groomed, State.grooming, State.frameRead_frame]

/-- The frame in emission once it has begun. -/
def State.emitted : Emission :=
  { frame := FrameSource.frame f (State.arbitrate (State.mark u)).segment (Grooming.payload (State.groomed u f))
    substitute := f.substitute, ends := (State.arbitrate (State.mark u)).ends
    drop := Grooming.dropFrame (State.groomed u f) u.lastGood, payloadDone := false }

theorem State.emit_current : (State.emit u f).ringOut.current = some (State.emitted u f) := by
  have hlast : (State.frameRead u).2.lastGood = u.lastGood := by rw [State.frameRead_frame]
  rw [State.emitted, ← hlast]; rfl

theorem State.emit_lastGood : (State.emit u f).lastGood = Grooming.lastGood (State.groomed u f) u.lastGood := by
  have hlast : (State.frameRead u).2.lastGood = u.lastGood := by rw [State.frameRead_frame]
  rw [← hlast]; rfl

theorem State.emitted_check : (State.emitted u f).frame.check = checkOf (Frame.covered (State.emitted u f).frame) :=
  (of_decide_eq_true (Frame.sealed_checkPasses _)).symm

theorem State.emitted_payload (x : Slot) : (State.emitted u f).frame.payload[x] = Grooming.outgoing (State.groomed u f) x :=
  Grooming.payload_get _ x

/-! #### The outgoing sample by the action (R48) -/

variable {u f} {x : Slot}

theorem State.emitted_passes (h : (MapStore.activeBank u.mapStore)[x].action = .pass) :
    (State.emitted u f).frame.payload[x] = f.received[x] := by
  rw [State.emitted_payload, State.groomed_eq, Grooming.outgoing]
  simp only [h]

theorem State.emitted_taps {c : Channel} (h : (MapStore.activeBank u.mapStore)[x].action = .tap c) :
    (State.emitted u f).frame.payload[x] = f.received[x] := by
  rw [State.emitted_payload, State.groomed_eq, Grooming.outgoing]
  simp only [h]

theorem State.emitted_terminates {c : Channel} (h : (MapStore.activeBank u.mapStore)[x].action = .terminate c) :
    (State.emitted u f).frame.payload[x] = u.ringOut.idleWord := by
  rw [State.emitted_payload, State.groomed_eq, Grooming.outgoing]
  simp only [h]

theorem State.emitted_mutes (h : (MapStore.activeBank u.mapStore)[x].action = .mute) :
    (State.emitted u f).frame.payload[x] = u.ringOut.idleWord := by
  rw [State.emitted_payload, State.groomed_eq, Grooming.outgoing]
  simp only [h]

theorem State.emitted_inserts {c : Channel} (h : (MapStore.activeBank u.mapStore)[x].action = .insert c) :
    (State.emitted u f).frame.payload[x] = (State.frameRead u).1[c] := by
  rw [State.emitted_payload, State.groomed_eq, Grooming.outgoing]
  simp only [h]

end

/-! ### The start as the statements have it (R33, R73, R79, R124) -/

theorem State.emit_begins {u : State} (hr : u.resetN = true) (f : FrameSource) :
    State.FrameBegins u (State.emitted u f) (State.emit u f) := by
  unfold State.FrameBegins
  intro m g ready unfinished inserts
  have hengine : (State.emit u f).engine = g.after.engine := by
    show (State.frameRead u).2.engine = _
    rw [State.frameRead_frame]
    show _ = (State.arbitrated u).engine
    rw [State.arbitrated_frame]
  have hservice : (State.emit u f).service = (State.arbitrated u).service := by
    show (State.frameRead u).2.service = _
    rw [State.frameRead_frame]
  have hready : State.ownReady g.after = true ↔ ready := State.ownReady_iff g.after
  refine ⟨State.mark_marked hr, rfl, rfl, hengine, fun h => ?settled, fun hp hn => ?opened, ?read⟩
  case settled =>
    have hnot : (decide (g.part = .neither) && !State.ownReady g.after) = false := by
      rcases h with h | h
      · rw [decide_eq_false h]; rfl
      · rw [hready.2 h, Bool.not_true, Bool.and_false]
    rw [hservice, State.arbitrated_service, hnot]; rfl
  case opened =>
    have hopen : (decide (g.part = .neither) && !State.ownReady g.after) = true := by
      rw [decide_eq_true hp, Bool.eq_false_iff.2 (mt hready.1 hn)]; rfl
    rw [hservice, State.arbitrated_service, hopen]; rfl
  case read =>
    obtain ⟨x, hunfinished, hfinished, hport, hevents, hcounters⟩ := State.followFrameStart_began u hr
    refine ⟨x, hunfinished, hfinished, ?_⟩
    intro port
    have hframe := State.followed_frame u
    generalize hw : State.followFrameStart (State.arbitrated u) = w at hport hevents hcounters hframe
    have hread : State.frameRead u = State.readAdd w := by rw [State.frameRead, hw]
    have hidle : w.ringOut.idleWord = u.ringOut.idleWord := by rw [hframe]
    have hinserts : inserts (State.readAdd w).1 := fun y c hc => by rw [← hread]; exact State.emitted_inserts hc
    have hafter {add : LocalSamples} {v : State} (h : State.readAdd w = (add, v)) : inserts add ∧
        (State.emit u f).port = v.port ∧ (State.emit u f).events = v.events ∧ (State.emit u f).counters = v.counters := by
      have hv : (State.frameRead u).2 = v := by rw [hread, h]
      rw [h] at hinserts
      exact ⟨hinserts, by rw [← hv]; rfl, by rw [← hv]; rfl, by rw [← hv]; rfl⟩
    have hw' : w.port = port := hport
    refine ⟨fun hs => ?_, fun add later hs hf => ?_, fun add hs hf hl => ?_⟩
    · obtain ⟨hi, hp, he, hc⟩ := hafter (State.readAdd_of_idle (by rw [hw']; exact hs))
      rw [hidle] at hi
      exact ⟨hi, hp.trans hw', he.trans hevents, hc.trans hcounters⟩
    · obtain ⟨hi, hp, he, hc⟩ := hafter (State.readAdd_of_running (by rw [hw']; exact hs) (by rw [hw']; exact hf))
      exact ⟨hi, by rw [hp, hw'], he.trans hevents, hc.trans hcounters⟩
    · obtain ⟨hi, hp, he, hc⟩ :=
        hafter (State.readAdd_of_empty (by rw [hw']; exact hs) (by rw [hw']; exact hf) (by rw [hw']; exact hl))
      refine ⟨hi, hp.trans hw', ?_, ?_⟩
      · rw [he, State.post_events]
        show EventUnit.post w.aligner.flywheel.superframe w.engine.address .addSlip none none w.events = _
        rw [hevents, hframe]
      · rw [hc]
        show w.counters.set _ _ = _
        rw [hcounters]

end Sys2Proof.Machine

/-! SUPPORT. What an emitted frame carries by its source and delivers to the Drop Store (R9, R10, R46 to R51, R101), and the
settlement of O22, O23 and O24. -/

namespace Sys2Proof.Machine

set_option Elab.async false

/-! ### The commands that begin a frame -/

/-- What the start of a frame leaves as it was (R9, R10, R33). -/
theorem State.emit_eq_of_current (u : State) (f : FrameSource) {e : Emission} (he : State.emitted u f = e) :
    State.emit u f = { u with
      ringOut := { u.ringOut with current := some e }
      lastGood := (State.emit u f).lastGood, port := (State.emit u f).port, service := (State.emit u f).service
      engine := { u.engine with replies := (State.emit u f).engine.replies }
      events := (State.emit u f).events, counters := (State.emit u f).counters, choices := (State.emit u f).choices } := by
  have h := State.emit_frame u f
  rwa [State.emit_current, he] at h

section
variable {s : State}

/-- Between two frames, where no reset waits for the boundary, there is nothing to end (R127, R144). -/
theorem State.endFrame_idle (hc : s.ringOut.current = none)
    (hw : ∀ p, s.engine.resetPending = some p → p.moment = .boundary → s.service.emission ≠ .nothing) :
    State.endFrame s = s :=
  (State.endFrame_of_none hc).trans (State.boundaryReset_waits hw)

theorem exec_forwardedFrameStart {c : Copy} {rest : List Copy} (hr : s.resetN = true)
    (hc : (State.endFrame s).ringOut.copies = c :: rest) :
    exec .forwardedFrameStart s = .next (State.beginForwarded (State.endFrame s) c rest) := by
  change execForwardedFrameStart s = _
  simp only [execForwardedFrameStart, hc]
  exact takenWhen_next hr rfl _

theorem State.substituteMayStart_of (hr : s.resetN = true) (ha : s.aligner.align ≠ .aligned) (hc : s.ringOut.copies = []) :
    State.substituteMayStart s = true := by
  simp only [State.substituteMayStart, hr, hc, ha, ne_eq, not_false_eq_true, decide_true, List.isEmpty_nil, Bool.and_self]

/-- The flywheel steps in HUNT and NO_SIGNAL, but for the first frame after a reset (R22). -/
theorem State.substituteNumber_eq (ha : s.aligner.align ≠ .aligned) :
    State.substituteNumber s =
      if s.aligner.align ≠ .confirm ∧ s.ringOut.resetPairDue = false then successor s.aligner.flywheel
      else s.aligner.flywheel := by
  rw [State.substituteNumber]
  cases h : s.aligner.align with
  | aligned => exact absurd h ha
  | confirm => simp
  | hunt => simp
  | noSignal => simp

end

/-! ### The mark without a watchdog, and the add frame in EXTERNAL (R79, R85) -/

section
variable {u : State}

/-- Where no class is in service the mark finds no timer, and without a watchdog it posts nothing (R85, R163). -/
theorem State.mark_slot (hm : u.port.mode ≠ .external) (hs : ∀ c : ClassId, u.events.service[c] = none) :
    (State.mark u).events.slot = u.events.slot := by
  have hrest (d : ClassId) : EventUnit.restful u.events d := fun v hv => nomatch (hs d).symm.trans hv
  have hevents : (State.mark u).events = (State.ticked u).events :=
    (State.watchdogMark_events (State.ticked u)).trans (if_neg fun h => hm h.1.1)
  rw [hevents]
  show (EventUnit.mark _ _ _ _ u.events).slot = _
  rw [EventUnit.mark_of_restful _ _ _ _ hrest]
  rfl

/-- With nothing to send, the arbiter gives an IDLE segment (R124). -/
theorem State.arbitrate_idle (hm : u.port.mode ≠ .external) (he : u.service.emission = .nothing) (hq : u.service.transit = [])
    (hr : u.engine.replies = []) (hslot : u.events.slot = none) (hs : ∀ c : ClassId, u.events.service[c] = none) :
    (State.arbitrate (State.mark u)).segment = idleSegment ∧ (State.arbitrate (State.mark u)).ends = .nothing := by
  have hmark := State.mark_frame u
  have hready : ¬State.ownReady (State.mark u) = true := by
    rw [State.ownReady_iff, State.mark_slot hm hs, hslot, hmark, hr]
    simp
  have hchoose := State.choose_idle (s := State.mark u) (by rw [hmark]; exact he) (by rw [hmark]; exact hq) hready
  rw [State.arbitrate_of_choose hchoose]
  exact ⟨rfl, rfl⟩

/-- Outside FOLLOW the frame reads the Add Store as the mark left it (R79). -/
theorem State.frameRead_of_mode (hm : u.port.mode ≠ .follow) :
    ∃ w : State, State.frameRead u = State.readAdd w ∧ w.port = (State.mark u).port ∧ w.ringOut = u.ringOut ∧
      w.counters = u.counters := by
  have hmode : ¬(State.arbitrated u).port.mode = .follow := by
    rw [State.arbitrated_frame]; exact fun h => hm ((State.mark_mode u).symm.trans h)
  refine ⟨State.arbitrated u, ?_, ?_, ?_, ?_⟩
  · rw [State.frameRead, State.followFrameStart, if_neg hmode]
  all_goals rw [State.arbitrated_frame]

/-- Outside FOLLOW an Add Store that is not RUNNING gives idle words (R79). -/
theorem State.frameRead_idle (hm : u.port.mode ≠ .follow) (hs : u.port.add.state ≠ .running) :
    (State.frameRead u).1 = Vector.replicate 32 u.ringOut.idleWord := by
  obtain ⟨w, hread, hport, hring, -⟩ := State.frameRead_of_mode hm
  rw [hread, State.readAdd_of_idle (by rw [hport]; exact State.mark_add_idle hs), hring]

section
variable (hm : u.port.mode = .external) (hw : u.port.watchdog < 3) (hs : u.port.add.state = .running) {add : LocalSamples}
include hm hw hs

/-- In EXTERNAL, before the watchdog's last count, a RUNNING Add Store gives its oldest frame (R79). -/
theorem State.frameRead_external {later : List LocalSamples} (hf : u.port.add.frames = add :: later) :
    (State.frameRead u).1 = add ∧
      (State.frameRead u).2.port.add = { state := .running, frames := later, last := some add } := by
  obtain ⟨w, hread, hport, -⟩ := State.frameRead_of_mode (u := u) (by rw [hm]; decide)
  have hadd : w.port.add = u.port.add := by rw [hport, State.mark_add hw]
  rw [hread, State.readAdd_of_running (by rw [hadd]; exact hs) (by rw [hadd]; exact hf)]
  exact ⟨rfl, rfl⟩

/-- At fill 0 it gives its last delivered frame again, and the slip is counted (R81). -/
theorem State.frameRead_repeats (hf : u.port.add.frames = []) (hl : u.port.add.last = some add) :
    (State.frameRead u).1 = add ∧ (State.frameRead u).2.port.add = u.port.add ∧
      (State.frameRead u).2.counters[CounterName.addSlips.index] = raise16 u.counters[CounterName.addSlips.index] := by
  obtain ⟨w, hread, hport, -, hcounters⟩ := State.frameRead_of_mode (u := u) (by rw [hm]; decide)
  have hadd : w.port.add = u.port.add := by rw [hport, State.mark_add hw]
  rw [hread, State.readAdd_of_empty (by rw [hadd]; exact hs) (by rw [hadd]; exact hf) (by rw [hadd]; exact hl)]
  refine ⟨rfl, hadd, ?_⟩
  show (State.count w .addSlips).counters[CounterName.addSlips.index] = _
  rw [State.count_counter, if_pos rfl, hcounters]

end

end

/-! ### A frame without received samples (R10) -/

section
variable {u : State} {f : FrameSource} (hr : ∀ x : Slot, f.received[x] = u.ringOut.idleWord) {x : Slot}
include hr

/-- Where the received samples are idle words, only an INSERT slot may carry another word (R48). -/
theorem State.emitted_idle (h : ∀ c, (MapStore.activeBank u.mapStore)[x].action ≠ .insert c) :
    (State.emitted u f).frame.payload[x] = u.ringOut.idleWord := by
  cases ha : (MapStore.activeBank u.mapStore)[x].action with
  | pass => rw [State.emitted_passes ha, hr]
  | tap c => rw [State.emitted_taps ha, hr]
  | terminate c => rw [State.emitted_terminates ha]
  | insert c => exact absurd ha (h c)
  | mute => rw [State.emitted_mutes ha]

/-- With an add frame of idle words every slot carries the idle word. -/
theorem State.emitted_unread (h : (State.frameRead u).1 = Vector.replicate 32 u.ringOut.idleWord) :
    (State.emitted u f).frame.payload[x] = u.ringOut.idleWord := by
  by_cases ha : ∃ c, (MapStore.activeBank u.mapStore)[x].action = .insert c
  · obtain ⟨c, hc⟩ := ha
    rw [State.emitted_inserts hc, h]
    simp
  · exact State.emitted_idle hr fun c hc => ha ⟨c, hc⟩

end

/-! ### What is delivered (R46 to R51, R101) -/

theorem slotSilenced_iff (ws : Vector Watch 16) (x : Slot) :
    slotSilenced ws x = true ↔ ∃ i : WatchId, ws[i].setup.enabled = true ∧ ws[i].setup.slot = x ∧
      ws[i].setup.consequence = .substitute ∧ ws[i].status = .silent := by
  simp only [slotSilenced, List.any_eq_true, List.mem_finRange, true_and, Bool.and_eq_true, decide_eq_true_eq, and_assoc]

/-- The watches as the Slot Switch takes them have their setups, and each its status or one that the frame's own evaluation has
changed (R45, log entry 7). -/
theorem watchesTaken_watch (n : Nat) (before : List (WatchId × WatchStatus)) (ws : Vector Watch 16) (i : WatchId) :
    (watchesTaken n ws before)[i].setup = ws[i].setup ∧
      ((watchesTaken n ws before)[i].status = ws[i].status ∨ (i, (watchesTaken n ws before)[i].status) ∈ before) := by
  unfold watchesTaken
  induction before generalizing ws with
  | nil => exact ⟨rfl, .inl rfl⟩
  | cons p rest ih =>
    rw [List.foldl_cons]
    obtain ⟨hsetup, hstatus⟩ :=
      ih (if Config.statusTakenBefore n p.1 then ws.set p.1 { ws[p.1] with status := p.2 } else ws)
    split at hsetup
    · next ht =>
      simp only [if_pos ht] at hsetup hstatus ⊢
      by_cases hi : p.1 = i
      · subst hi
        rw [Vector.set_fin, if_pos rfl] at hsetup hstatus
        refine ⟨hsetup, .inr (hstatus.elim (fun h => ?_) (List.mem_cons_of_mem p))⟩
        rw [h]; exact List.mem_cons_self
      · rw [Vector.set_fin, if_neg hi] at hsetup hstatus
        exact ⟨hsetup, hstatus.imp_right (List.mem_cons_of_mem p)⟩
    · next hn =>
      simp only [if_neg hn] at hstatus ⊢
      exact ⟨hsetup, hstatus.imp_right (List.mem_cons_of_mem p)⟩

/-- The slot's entry is a drop entry of the channel (R37). -/
abbrev Bank.drops (b : Bank) (ch : Channel) (x : Slot) : Prop := b[x].action = .tap ch ∨ b[x].action = .terminate ch

section
variable {b : Bank} {ch : Channel}

theorem Bank.dropSlot_of_one {x : Slot} (hx : Bank.drops b ch x) (hone : ∀ y, Bank.drops b ch y → y = x) :
    Bank.dropSlot b ch = some x := by
  cases hd : Bank.dropSlot b ch with
  | none =>
    have := List.find?_eq_none.1 hd x (List.mem_finRange x)
    exact absurd (decide_eq_true ((Action.dropChannel_iff _ _).2 hx)) this
  | some y =>
    have hy : Action.dropChannel b[y].action = some ch := 
      of_decide_eq_true (List.find?_some (p := fun s : Slot => decide (Action.dropChannel b[s].action = some ch)) hd)
    rw [hone y ((Action.dropChannel_iff _ _).1 hy)]

theorem Bank.dropSlot_of_none (h : ∀ x, ¬Bank.drops b ch x) : Bank.dropSlot b ch = none :=
  List.find?_eq_none.2 fun x _ hx => h x ((Action.dropChannel_iff _ _).1 (of_decide_eq_true hx))

variable (g : Grooming) (lg : LocalSamples)

theorem Grooming.lastGood_of_none (h : Bank.dropSlot g.bank ch = none) : (Grooming.lastGood g lg)[ch] = lg[ch] := by
  simp [Grooming.lastGood, h]

theorem Grooming.lastGood_of_some {x : Slot} (h : Bank.dropSlot g.bank ch = some x) :
    (Grooming.lastGood g lg)[ch] = if Grooming.faulted g x then lg[ch] else g.received[x] := by
  simp [Grooming.lastGood, h]

theorem Grooming.undropped (h : Bank.dropSlot g.bank ch = none) :
    (Grooming.dropFrame g lg)[ch] = g.idle ∧ (Grooming.lastGood g lg)[ch] = lg[ch] := by
  rw [Grooming.dropFrame_get, Grooming.lastGood_of_none g lg h]
  simp only [Grooming.delivered, h, and_self]

variable {g} {x : Slot} (hd : Bank.dropSlot g.bank ch = some x)
include hd

theorem Grooming.dropped_sound (h : Grooming.faulted g x = false) :
    (Grooming.dropFrame g lg)[ch] = g.received[x] ∧ (Grooming.lastGood g lg)[ch] = g.received[x] := by
  rw [Grooming.dropFrame_get, Grooming.lastGood_of_some g lg hd]
  simp only [Grooming.delivered, hd, h, Bool.false_eq_true, if_false, and_self]

theorem Grooming.dropped_faulted (h : Grooming.faulted g x = true) :
    (Grooming.dropFrame g lg)[ch] = Substitution.sample g.bank[x].substitution lg[ch] g.idle ∧
      (Grooming.lastGood g lg)[ch] = lg[ch] := by
  rw [Grooming.dropFrame_get, Grooming.lastGood_of_some g lg hd]
  simp only [Grooming.delivered, hd, h, if_true, and_self]

end

/-- A frame that is not sound changes no last-good sample (R46, R50). -/
theorem Grooming.lastGood_unsound {g : Grooming} (h : g.sound = false) (lg : LocalSamples) : Grooming.lastGood g lg = lg := by
  refine Vector.ext fun i hi => ?_
  have hfaulted (x : Slot) : Grooming.faulted g x = true := by rw [Grooming.faulted, h]; rfl
  show (Grooming.lastGood g lg)[(⟨i, hi⟩ : Channel)] = lg[(⟨i, hi⟩ : Channel)]
  cases hd : Bank.dropSlot g.bank ⟨i, hi⟩ with
  | none => exact Grooming.lastGood_of_none g lg hd
  | some x => rw [Grooming.lastGood_of_some g lg hd, if_pos (hfaulted x)]

end Sys2Proof.Machine

namespace Sys2Proof.Proofs

open Sys2Proof Sys2Proof.Machine

set_option Elab.async false

/-- Settles O22: the frame that begins is the one the Frame Builder places; an end before it is the boundary's. -/
theorem substituteFrameIsBuilt : Obligations.SubstituteFrameIsBuilt := by
  refine ⟨fun s hr ha hc hcopies hwait => ?begins, fun s u hr hu ha hcopies => ?ends⟩
  case ends =>
    have hend : State.endFrame s = u := Host.Outcome.next.inj ((takenWhen_next hr rfl _).symm.trans hu)
    have hur : u.resetN = true := by rw [← hend, State.endFrame_resetN]; exact hr
    have hmay := State.substituteMayStart_of hur ha hcopies
    have hsame : State.endFrame u = u := by rw [← hend]; exact State.endFrame_idem s
    rw [State.exec_substitute hr (by rw [hend]; exact hmay), State.exec_substitute hur (by rw [hsame]; exact hmay), hend, hsame]
  case begins =>
    intro pair
    have hend := State.endFrame_idle hc hwait
    have hpair : State.substituteNumber s = pair := State.substituteNumber_eq ha
    have hexec := State.exec_substitute hr (by rw [hend]; exact State.substituteMayStart_of hr ha hcopies)
    rw [hend] at hexec
    have hstepped : State.steppedForSubstitute s = { s with
        aligner := { s.aligner with flywheel := pair }, ringOut := { s.ringOut with resetPairDue := false } } := by
      rw [State.steppedForSubstitute, hpair]
    rw [← hstepped]
    generalize hu : State.steppedForSubstitute s = u at hstepped
    have hexec' : exec .substituteFrameStart s = .next (State.emit u (State.substituteSource u)) := by rw [hexec, ← hu]; rfl
    have hreceived (x : Slot) : (State.substituteSource u).received[x] = s.ringOut.idleWord := by
      have hidle : u.ringOut.idleWord = s.ringOut.idleWord := by rw [hstepped]
      show (Vector.replicate 48 u.ringOut.idleWord)[x] = _
      rw [hidle]; simp
    have hmark : u.port = s.port ∧ u.service = s.service ∧ u.engine = s.engine ∧ u.events = s.events := by
      rw [hstepped]; exact ⟨rfl, rfl, rfl, rfl⟩
    obtain ⟨hport, hservice, hengine, hevents⟩ := hmark
    have hmap : u.mapStore = s.mapStore := by rw [hstepped]
    have hidle : u.ringOut.idleWord = s.ringOut.idleWord := by rw [hstepped]
    refine ⟨State.emit u (State.substituteSource u), State.emitted u (State.substituteSource u), hexec', State.emit_current u _,
      ?frame, rfl, rfl, rfl, ?number, ?hop, rfl, rfl, State.emitted_check u _, State.emit_begins ?on _, fun x hx => ?idle, fun hm hs x => ?unread,
      fun x c add later hm hw hs hf hx => ?read, fun hm he hq hrep hslot hserv => ?segment⟩
    case frame =>
      have hframe := State.emit_eq_of_current u (State.substituteSource u) rfl
      rw [hstepped] at hframe ⊢
      exact hframe
    case number => rw [hstepped]; rfl
    case hop => rw [hstepped]; rfl
    case on => rw [hstepped]; exact hr
    case idle =>
      rw [← hidle]
      exact State.emitted_idle (fun y => (hreceived y).trans hidle.symm) (by rw [hmap]; exact hx)
    case unread =>
      rw [← hidle]
      have hread := State.frameRead_idle (u := u) (by rw [hport]; exact hm) (by rw [hport]; exact hs)
      exact State.emitted_unread (fun y => (hreceived y).trans hidle.symm) hread
    case read =>
      obtain ⟨hread, hadd⟩ :=
        State.frameRead_external (u := u) (by rw [hport]; exact hm) (by rw [hport]; exact hw) (by rw [hport]; exact hs)
          (by rw [hport]; exact hf)
      exact ⟨by rw [State.emitted_inserts (by rw [hmap]; exact hx), hread], hadd⟩
    case segment =>
      exact State.arbitrate_idle (u := u) (by rw [hport]; exact hm) (by rw [hservice]; exact he) (by rw [hservice]; exact hq)
        (by rw [hengine]; exact hrep) (by rw [hevents]; exact hslot) (by rw [hevents]; exact hserv)

/-- Settles O23: the header is the copy's, and the action of each slot decides its word. -/
theorem forwardedFrameIsBuilt : Obligations.ForwardedFrameIsBuilt := by
  intro s c rest hr hc hcopies hwait
  have hend := State.endFrame_idle hc hwait
  have hexec := exec_forwardedFrameStart (c := c) (rest := rest) hr (by rw [hend]; exact hcopies)
  rw [hend] at hexec
  let u : State := { s with ringOut := { s.ringOut with copies := rest } }
  refine ⟨State.emit u (Copy.source c), State.emitted u (Copy.source c), hexec, State.emit_current u _, ?frame, rfl, rfl, rfl, rfl,
    rfl, rfl, rfl, State.emitted_check u _, State.emit_begins (u := u) hr _, fun x => ?samples⟩
  case frame => exact State.emit_eq_of_current u (Copy.source c) rfl
  case samples =>
    split
    · next h => exact State.emitted_passes (u := u) h
    · next ch h => exact State.emitted_taps (u := u) h
    · next ch h => exact State.emitted_terminates (u := u) h
    · next h => exact State.emitted_mutes (u := u) h
    · next ch h =>
      have hinserts := State.emitted_inserts (u := u) (f := Copy.source c) h
      refine ⟨fun add later hm hw hs hf => ?_, fun add hm hw hs hf hl => ?_⟩
      · obtain ⟨hread, hadd⟩ := State.frameRead_external (u := u) hm hw hs hf
        exact ⟨by rw [hinserts, hread], hadd⟩
      · obtain ⟨hread, hadd, hcounters⟩ := State.frameRead_repeats (u := u) hm hw hs hf hl
        exact ⟨by rw [hinserts, hread], hadd, hcounters⟩

/-- Settles O24: the one drop entry of a channel decides what the Slot Switch delivers to it. -/
theorem dropFrameIsFormed : Obligations.DropFrameIsFormed := by
  intro s hr hc hpend bank drops silenced substituted
  have hend : State.endFrame s = s := State.endFrame_idle hc fun p hp => (nomatch hpend.symm.trans hp)
  have hdrops {u : State} {f : FrameSource} (hmap : u.mapStore = s.mapStore) (ch : Channel) (x : Slot) :
      Bank.drops (State.groomed u f).bank ch x ↔ drops ch x := by rw [State.groomed_eq, hmap]
  have hslot {u : State} {f : FrameSource} (hmap : u.mapStore = s.mapStore) {ch : Channel} {x : Slot} (hx : drops ch x)
      (hone : ∀ y, drops ch y → y = x) : Bank.dropSlot (State.groomed u f).bank ch = some x :=
    Bank.dropSlot_of_one ((hdrops hmap ch x).2 hx) fun y hy => hone y ((hdrops hmap ch y).1 hy)
  have hnone {u : State} {f : FrameSource} (hmap : u.mapStore = s.mapStore) {ch : Channel} (h : ∀ x, ¬drops ch x) :
      Bank.dropSlot (State.groomed u f).bank ch = none :=
    Bank.dropSlot_of_none fun x hx => h x ((hdrops hmap ch x).1 hx)
  have hsample {u : State} {f : FrameSource} (hmap : u.mapStore = s.mapStore) (hidle : u.ringOut.idleWord = s.ringOut.idleWord)
      (ch : Channel) (x : Slot) : Substitution.sample (State.groomed u f).bank[x].substitution s.lastGood[ch] (State.groomed u f).idle =
        substituted ch x := by
    rw [State.groomed_eq, hmap, hidle]
    simp only [substituted, Substitution.sample]
    rfl
  refine ⟨fun c rest hcopies => ?forwarded, fun ha hcopies => ?substitute⟩
  case forwarded =>
    have hexec := exec_forwardedFrameStart (c := c) (rest := rest) hr (by rw [hend]; exact hcopies)
    rw [hend] at hexec
    let u : State := { s with ringOut := { s.ringOut with copies := rest } }
    let ws := watchesTaken (State.frameRead u).2.choices s.watches c.statusBefore
    have htaken (i : WatchId) := watchesTaken_watch (State.frameRead u).2.choices c.statusBefore s.watches i
    have hwatches : (State.groomed u (Copy.source c)).watches = ws := by rw [State.groomed_eq]; rfl
    have hsilenced (x : Slot) : slotSilenced ws x = true ↔ silenced (fun i => ws[i].status) x := by
      rw [slotSilenced_iff]
      refine exists_congr fun i => ?_
      rw [(htaken i).1]
    have hreceived : (State.groomed u (Copy.source c)).received = c.payload := by rw [State.groomed_eq]; rfl
    have hsound : (State.groomed u (Copy.source c)).sound = c.sound := by rw [State.groomed_eq]; rfl
    have hlast : (State.emit u (Copy.source c)).lastGood = Grooming.lastGood (State.groomed u (Copy.source c)) s.lastGood :=
      State.emit_lastGood u _
    refine ⟨State.emit u (Copy.source c), State.emitted u (Copy.source c), fun i => ws[i].status, hexec, State.emit_current u _,
      fun i => (htaken i).2, fun ch => ⟨fun h => ?undropped, fun x hx hone => ⟨fun hs => ?sound, fun hf => ?faulted⟩⟩⟩
    case undropped =>
      obtain ⟨hdrop, hkept⟩ := Grooming.undropped (State.groomed u (Copy.source c)) s.lastGood (hnone (u := u) rfl h)
      rw [hlast]
      exact ⟨hdrop.trans (by rw [State.groomed_eq]), hkept⟩
    case sound =>
      have hclear : Grooming.faulted (State.groomed u (Copy.source c)) x = false := by
        rw [Grooming.faulted, hsound, hwatches, hs.1, Bool.eq_false_iff.2 (mt (hsilenced x).1 hs.2)]; rfl
      have hdropped := Grooming.dropped_sound s.lastGood (hslot (u := u) rfl hx hone) hclear
      rw [hreceived] at hdropped
      rw [hlast]
      exact hdropped
    case faulted =>
      have hfaulted : Grooming.faulted (State.groomed u (Copy.source c)) x = true := by
        rw [Grooming.faulted, hsound, hwatches]
        rcases hf with hf | hf
        · rw [hf]; rfl
        · rw [(hsilenced x).2 hf, Bool.or_true]
      obtain ⟨hdrop, hkept⟩ := Grooming.dropped_faulted s.lastGood (hslot (u := u) rfl hx hone) hfaulted
      rw [hlast]
      exact ⟨hkept, hdrop.trans (hsample (u := u) rfl rfl ch x)⟩
  case substitute =>
    have hexec := State.exec_substitute hr (by rw [hend]; exact State.substituteMayStart_of hr ha hcopies)
    rw [hend] at hexec
    let u := State.steppedForSubstitute s
    let f := State.substituteSource u
    have hsound : (State.groomed u f).sound = false := by rw [State.groomed_eq]; rfl
    have hfaulted (x : Slot) : Grooming.faulted (State.groomed u f) x = true := by rw [Grooming.faulted, hsound]; rfl
    have hlast : (State.emit u f).lastGood = Grooming.lastGood (State.groomed u f) s.lastGood := State.emit_lastGood u f
    refine ⟨State.emit u f, State.emitted u f, hexec, State.emit_current u f, hlast.trans (Grooming.lastGood_unsound hsound _),
      fun ch => ⟨fun h => ?_, fun x hx hone => ?_⟩⟩
    · obtain ⟨hdrop, -⟩ := Grooming.undropped (State.groomed u f) s.lastGood (hnone (u := u) rfl h)
      exact hdrop.trans (by rw [State.groomed_eq]; rfl)
    · obtain ⟨hdrop, -⟩ := Grooming.dropped_faulted s.lastGood (hslot (u := u) rfl hx hone) (hfaulted x)
      exact hdrop.trans (hsample (u := u) rfl rfl ch x)

end Sys2Proof.Proofs

/-! SUPPORT. The copies that are due are read by the ring-out side alone (R9, R28): what a frame that is classified leaves of two
nodes that differ in them, the handling of requests and the receive side included, and the settlement of O18. -/

namespace Sys2Proof.Machine

set_option Elab.async false

/-- The node with other copies due. -/
abbrev State.copied (s : State) (cs : List Copy) : State := { s with ringOut := { s.ringOut with copies := cs } }

/-- Two nodes that differ in the copies that are due alone. -/
abbrev State.Alike (s t : State) : Prop := ∃ cs, t = State.copied s cs

/-- Two answers that differ in the copies that are due alone. -/
abbrev Answer.Alike (a b : Answer) : Prop := ∃ cs, b = ⟨a.code, a.contents, State.copied a.after cs⟩

/-! ### Each operation answers alike (R138) -/

section
variable (params : List Octet) (r : Request) (s : State) (cs : List Copy)

theorem answerIdentify_alike : Answer.Alike (answerIdentify params s) (answerIdentify params (State.copied s cs)) := by
  unfold answerIdentify
  split <;> exact ⟨cs, rfl⟩

theorem answerAssignAddress_alike :
    Answer.Alike (answerAssignAddress params s) (answerAssignAddress params (State.copied s cs)) := by
  unfold answerAssignAddress
  split
  · split <;> exact ⟨cs, rfl⟩
  · exact ⟨cs, rfl⟩

theorem answerReadStatus_alike : Answer.Alike (answerReadStatus params s) (answerReadStatus params (State.copied s cs)) := by
  unfold answerReadStatus
  split <;> exact ⟨cs, rfl⟩

theorem answerWriteNodeSetup_alike :
    Answer.Alike (answerWriteNodeSetup params s) (answerWriteNodeSetup params (State.copied s cs)) := by
  unfold answerWriteNodeSetup
  split
  · cases nodeSettingsOf params <;> exact ⟨cs, rfl⟩
  · exact ⟨cs, rfl⟩

theorem answerWriteMap_alike : Answer.Alike (answerWriteMap params s) (answerWriteMap params (State.copied s cs)) := by
  unfold answerWriteMap
  split
  · next first count rest =>
    split
    · split
      · cases entriesOf rest with
        | none => exact ⟨cs, rfl⟩
        | some es => simp only; cases s.mapStore.shadow <;> exact ⟨cs, rfl⟩
      · exact ⟨cs, rfl⟩
    · exact ⟨cs, rfl⟩
  · exact ⟨cs, rfl⟩

theorem answerReadMap_alike : Answer.Alike (answerReadMap params s) (answerReadMap params (State.copied s cs)) := by
  unfold answerReadMap
  split
  · next role first count =>
    simp only
    cases MapStore.roleOf s.mapStore role with
    | none => exact ⟨cs, rfl⟩
    | some letter => simp only; split <;> exact ⟨cs, rfl⟩
  · exact ⟨cs, rfl⟩

theorem answerCopyActive_alike : Answer.Alike (answerCopyActive params s) (answerCopyActive params (State.copied s cs)) := by
  unfold answerCopyActive
  split
  · simp only; cases s.mapStore.shadow <;> exact ⟨cs, rfl⟩
  · exact ⟨cs, rfl⟩

theorem answerCheckMap_alike : Answer.Alike (answerCheckMap params s) (answerCheckMap params (State.copied s cs)) := by
  unfold answerCheckMap
  split
  · simp only
    cases s.mapStore.shadow with
    | pending t => exact ⟨cs, rfl⟩
    | _ => simp only; cases Bank.firstConflict (MapStore.shadowBank s.mapStore) <;> exact ⟨cs, rfl⟩
  · exact ⟨cs, rfl⟩

/-- A WRITE_WATCH has the copies forget the former status of its watch, and shows nothing of them (R104, log entry 7). -/
theorem answerWriteWatch_alike : Answer.Alike (answerWriteWatch params s) (answerWriteWatch params (State.copied s cs)) := by
  unfold answerWriteWatch
  split
  · split
    · next i setup _ =>
      split
      · cases watchSetupOf setup <;> exact ⟨_, rfl⟩
      · exact ⟨cs, rfl⟩
    · exact ⟨cs, rfl⟩
  · exact ⟨cs, rfl⟩

theorem answerReadWatch_alike : Answer.Alike (answerReadWatch params s) (answerReadWatch params (State.copied s cs)) := by
  unfold answerReadWatch
  split
  · split <;> exact ⟨cs, rfl⟩
  · exact ⟨cs, rfl⟩

theorem answerWriteEventSetup_alike :
    Answer.Alike (answerWriteEventSetup params s) (answerWriteEventSetup params (State.copied s cs)) := by
  unfold answerWriteEventSetup
  split
  · cases orderModeOf (params.getD 22 0#8) <;> exact ⟨cs, rfl⟩
  · exact ⟨cs, rfl⟩

theorem answerReadClass_alike : Answer.Alike (answerReadClass params s) (answerReadClass params (State.copied s cs)) := by
  unfold answerReadClass
  split
  · split <;> exact ⟨cs, rfl⟩
  · exact ⟨cs, rfl⟩

theorem answerDiscardClass_alike :
    Answer.Alike (answerDiscardClass params s) (answerDiscardClass params (State.copied s cs)) := by
  unfold answerDiscardClass
  split
  · split <;> exact ⟨cs, rfl⟩
  · exact ⟨cs, rfl⟩

theorem answerReadCounters_alike :
    Answer.Alike (answerReadCounters params s) (answerReadCounters params (State.copied s cs)) := by
  unfold answerReadCounters
  split
  · next clear => cases clear.getLsbD 0 <;> exact ⟨cs, rfl⟩
  · exact ⟨cs, rfl⟩

theorem answerResetNode_alike : Answer.Alike (answerResetNode r s) (answerResetNode r (State.copied s cs)) := by
  unfold answerResetNode
  split
  · next code _ => cases resetScopeOf code <;> exact ⟨cs, rfl⟩
  · exact ⟨cs, rfl⟩

theorem answer_alike : Answer.Alike (answer r s) (answer r (State.copied s cs)) := by
  unfold answer
  split
  case h_1 => exact ⟨cs, rfl⟩
  case h_2 => exact answerIdentify_alike _ _ _
  case h_3 => exact answerAssignAddress_alike _ _ _
  case h_4 => exact answerReadStatus_alike _ _ _
  case h_5 => exact answerWriteNodeSetup_alike _ _ _
  case h_6 => exact answerWriteMap_alike _ _ _
  case h_7 => exact answerReadMap_alike _ _ _
  case h_8 => exact answerCopyActive_alike _ _ _
  case h_9 => exact answerCheckMap_alike _ _ _
  case h_10 =>
    obtain ⟨k, contents, m, hm⟩ := answerScheduleSwitch_map r s
    exact ⟨cs, by rw [hm s rfl, hm (State.copied s cs) rfl]⟩
  case h_11 =>
    obtain ⟨k, contents, m, hm⟩ := answerCancelSwitch_map r.packet.params s
    exact ⟨cs, by rw [hm s rfl, hm (State.copied s cs) rfl]⟩
  case h_12 => exact answerWriteWatch_alike _ _ _
  case h_13 => exact answerReadWatch_alike _ _ _
  case h_14 => exact answerWriteEventSetup_alike _ _ _
  case h_15 => exact answerReadClass_alike _ _ _
  case h_16 => exact answerDiscardClass_alike _ _ _
  case h_17 => exact answerReadCounters_alike _ _ _
  case h_18 => exact answerResetNode_alike _ _ _

end

/-! ### Taking and arrival (R133 to R143) -/

section
variable {s t : State} (h : State.Alike s t) (r : Request)
include h

theorem State.handleAddressed_alike : State.Alike (State.handleAddressed s r) (State.handleAddressed t r) := by
  obtain ⟨cs, rfl⟩ := h
  obtain ⟨ds, hds⟩ := answer_alike r s cs
  have hreplied : State.Alike (State.replied r (answer r s)) (State.replied r (answer r (State.copied s cs))) :=
    ⟨ds, by rw [hds]; rfl⟩
  unfold State.handleAddressed
  simp only
  split
  · split
    · unfold State.answerFromCache
      simp only
      split <;> exact ⟨cs, rfl⟩
    · exact hreplied
  · exact hreplied

theorem State.handleBroadcast_alike : State.Alike (State.handleBroadcast s r) (State.handleBroadcast t r) := by
  obtain ⟨cs, rfl⟩ := h
  unfold State.handleBroadcast
  simp only
  split
  · exact ⟨cs, rfl⟩
  · obtain ⟨ds, hds⟩ := answer_alike r { s with engine := { s.engine with broadcastCache := some r.packet.sequence } } cs
    refine ⟨ds, ?_⟩
    have hds' : answer r { State.copied s cs with engine := { s.engine with broadcastCache := some r.packet.sequence } } = _ := hds
    rw [hds', State.recordRefusal_eq, State.recordRefusal_eq]

theorem State.handle_alike : State.Alike (State.handle s r) (State.handle t r) := by
  have htold {u v : State} (huv : State.Alike u v) : State.Alike (State.told u) (State.told v) := by
    obtain ⟨cs, rfl⟩ := huv
    exact ⟨cs, rfl⟩
  cases hc : r.cls with
  | addressed =>
    rw [State.handle_addressed hc, State.handle_addressed hc]
    exact htold (State.handleAddressed_alike h r)
  | broadcast n f =>
    rw [State.handle_broadcast hc, State.handle_broadcast hc]
    exact htold (State.handleBroadcast_alike h r)

omit h in
theorem State.take_alike (h : State.Alike s t) : State.Alike (State.take s) (State.take t) := by
  obtain ⟨cs, rfl⟩ := h
  unfold State.take
  simp only
  split
  · next first rest _ =>
    split
    · exact State.handle_alike ⟨cs, rfl⟩ first
    · exact ⟨cs, rfl⟩
  · exact ⟨cs, rfl⟩

theorem State.arrive_alike : State.Alike (State.arrive s r) (State.arrive t r) := by
  obtain ⟨cs, rfl⟩ := h
  unfold State.arrive
  simp only
  split
  · exact ⟨cs, rfl⟩
  · split
    · exact ⟨cs, rfl⟩
    · split
      · exact ⟨cs, rfl⟩
      · exact State.take_alike ⟨cs, rfl⟩

end

/-! ### The receive side (R110 to R121) -/

section
variable {s t : State} (h : State.Alike s t) (octets : List Octet) (rt : Bool)

section
include h

theorem State.abortReceive_alike : State.Alike (State.abortReceive s) (State.abortReceive t) := by
  obtain ⟨cs, rfl⟩ := h
  unfold State.abortReceive
  simp only
  split <;> exact ⟨cs, rfl⟩

theorem State.count_alike (c : CounterName) : State.Alike (State.count s c) (State.count t c) := by
  obtain ⟨cs, rfl⟩ := h
  exact ⟨cs, rfl⟩

theorem State.post_alike (k : EventKind) (src : Option WatchId) (val : Option Sample) :
    State.Alike (State.post s k src val) (State.post t k src val) := by
  obtain ⟨cs, rfl⟩ := h
  exact ⟨cs, rfl⟩

theorem State.withReceive_alike (x : Receiving) (q : List TransitPacket) :
    State.Alike (State.withReceive s x q) (State.withReceive t x q) := by
  obtain ⟨cs, rfl⟩ := h
  exact ⟨cs, rfl⟩

theorem State.draw_alike : State.Alike (State.draw s) (State.draw t) := by
  obtain ⟨cs, rfl⟩ := h
  exact ⟨cs, rfl⟩

theorem State.Alike.service_eq : t.service = s.service := by
  obtain ⟨cs, rfl⟩ := h
  rfl

theorem State.Alike.aligner_eq : t.aligner = s.aligner := by
  obtain ⟨cs, rfl⟩ := h
  rfl

theorem State.abortCounted_alike : State.Alike (State.abortCounted s) (State.abortCounted t) := by
  unfold State.abortCounted
  rw [State.Alike.service_eq h]
  split
  · exact State.count_alike (State.abortReceive_alike h) _
  · exact h

theorem State.transitOverflow_alike : State.Alike (State.transitOverflow s) (State.transitOverflow t) :=
  State.post_alike (State.count_alike (State.abortReceive_alike h) _) _ _ _

theorem State.storeTransit_alike (x : Receiving) :
    State.Alike (State.storeTransit s x octets) (State.storeTransit t x octets) := by
  unfold State.storeTransit
  rw [State.Alike.service_eq h]
  split
  · exact State.withReceive_alike h _ _
  · exact State.transitOverflow_alike h

theorem State.takeFirst_alike : State.Alike (State.takeFirst s octets) (State.takeFirst t octets) := by
  have hd (d : Octet) : State.disposition t d = State.disposition s d := by
    obtain ⟨cs, rfl⟩ := h
    rfl
  unfold State.takeFirst
  rw [State.Alike.service_eq h, hd]
  cases State.disposition s (octets.getD 0 0#8) with
  | consume => exact State.withReceive_alike h _ _
  | copyAndForward =>
    simp only
    split
    · exact State.withReceive_alike h _ _
    · exact State.transitOverflow_alike h
  | forward =>
    simp only
    split
    · exact State.withReceive_alike h _ _
    · exact State.transitOverflow_alike h

theorem State.takeMore_alike : State.Alike (State.takeMore s octets) (State.takeMore t octets) := by
  have hchoices : t.choices = s.choices := by
    obtain ⟨cs, rfl⟩ := h
    rfl
  unfold State.takeMore
  rw [State.Alike.service_eq h, hchoices]
  cases s.service.receiving with
  | nothing => exact h
  | consume a =>
    simp only
    split
    · exact State.count_alike (State.withReceive_alike h _ _) _
    · exact State.withReceive_alike h _ _
  | forward => exact State.storeTransit_alike h octets _
  | copyForward a =>
    simp only
    split
    · split
      · exact State.storeTransit_alike (State.draw_alike (State.count_alike h _)) octets _
      · exact State.transitOverflow_alike (State.draw_alike h)
    · exact State.storeTransit_alike h octets _

theorem State.deliverConsumed_alike : State.Alike (State.deliverConsumed s octets rt) (State.deliverConsumed t octets rt) := by
  obtain ⟨cs, rfl⟩ := h
  cases hp : Packet.ofOctets octets with
  | none => simp only [State.deliverConsumed_bad hp]; exact ⟨cs, rfl⟩
  | some p =>
    by_cases hr : Packet.namedKind p = some .request
    · simp only [State.deliverConsumed_request hp hr]
      exact State.arrive_alike ⟨cs, rfl⟩ _
    · by_cases ha : Packet.namedKind p = some .ack
      · simp only [State.deliverConsumed_ack hp ha]; exact ⟨cs, rfl⟩
      · simp only [State.deliverConsumed_other hp hr ha]; exact ⟨cs, rfl⟩

theorem State.deliverCopy_alike : State.Alike (State.deliverCopy s octets rt) (State.deliverCopy t octets rt) := by
  obtain ⟨cs, rfl⟩ := h
  cases hp : Packet.ofOctets octets with
  | none => simp only [State.deliverCopy_bad hp]; exact ⟨cs, rfl⟩
  | some p =>
    by_cases hr : Packet.namedKind p = some .request
    · simp only [State.deliverCopy_request hp hr]
      exact State.arrive_alike ⟨cs, rfl⟩ _
    · simp only [State.deliverCopy_other hp hr]; exact ⟨cs, rfl⟩

theorem State.completePacket_alike : State.Alike (State.completePacket s rt) (State.completePacket t rt) := by
  unfold State.completePacket
  rw [State.Alike.service_eq h]
  cases s.service.receiving with
  | nothing => exact h
  | consume a => exact State.deliverConsumed_alike (State.withReceive_alike h _ _) a rt
  | forward => exact State.withReceive_alike h _ _
  | copyForward a => exact State.deliverCopy_alike (State.withReceive_alike h _ _) a rt

theorem State.receiveSegment_alike (g : Segment) : State.Alike (State.receiveSegment s g rt) (State.receiveSegment t g rt) := by
  have habort := State.abortCounted_alike h
  unfold State.receiveSegment
  split
  · exact habort
  · exact h
  · exact State.takeFirst_alike habort _
  · exact State.takeMore_alike h _
  · exact State.completePacket_alike (State.takeMore_alike h _) rt
  · exact State.completePacket_alike (State.takeFirst_alike habort _) rt
  · exact State.abortReceive_alike h

/-! ### The map, and a bad frame (R20, R24, R62) -/

theorem State.fireSwitch_alike : State.Alike (State.fireSwitch rt s) (State.fireSwitch rt t) := by
  obtain ⟨cs, rfl⟩ := h
  unfold State.fireSwitch
  simp only
  split
  · generalize MapStore.fire s.mapStore s.aligner.flywheel.superframe = fired
    obtain ⟨m, _ | ⟨k, v⟩⟩ := fired <;> exact ⟨cs, rfl⟩
  · exact ⟨cs, rfl⟩

theorem State.leaveAligned_alike (st : AlignState) : State.Alike (State.leaveAligned s st) (State.leaveAligned t st) := by
  obtain ⟨cs, rfl⟩ := h
  unfold State.leaveAligned
  exact State.abortCounted_alike ⟨cs, rfl⟩

theorem State.judgeQuality_alike : State.Alike (State.judgeQuality s) (State.judgeQuality t) := by
  have hreported : State.Alike (State.qualityReported s) (State.qualityReported t) := by
    obtain ⟨cs, rfl⟩ := h
    unfold State.qualityReported
    simp only
    split <;> exact ⟨cs, rfl⟩
  have haligner : t.aligner = s.aligner := State.Alike.aligner_eq h
  rw [State.judgeQuality_eq, State.judgeQuality_eq, haligner, State.Alike.aligner_eq hreported]
  split
  · exact State.leaveAligned_alike hreported _
  · exact hreported

end

end

/-! ### A frame with another payload (R8) -/

section
variable {s : State} {f g : Frame} (hg : g = { f with payload := g.payload, check := g.check })
include hg

theorem frameClass_payload (hf : f.check = checkOf (Frame.covered f)) (hc : g.check = checkOf (Frame.covered g)) (n : FrameNumber) :
    frameClass g n = frameClass f n := by
  have hsync : Frame.syncFound g = Frame.syncFound f := by rw [hg]; rfl
  have hnumber : g.number = f.number := by rw [hg]
  have hpass : Frame.checkPasses g = Frame.checkPasses f :=
    ((Frame.checkPasses_iff g).2 hc).trans ((Frame.checkPasses_iff f).2 hf).symm
  simp only [frameClass, hsync, hpass, hnumber]

/-- Two frames of one class and header teach the same, and leave different copies (R9, R26, R27). -/
theorem State.taken_payload (hc : State.classOf s g = State.classOf s f) : State.Alike (State.taken s f) (State.taken s g) := by
  have htaken : State.takeClassified (State.stepFlywheel (State.settleChoice s)) g (State.classOf s f) =
      State.takeClassified (State.stepFlywheel (State.settleChoice s)) f (State.classOf s f) := by rw [hg]; rfl
  rw [State.taken, State.taken, hc, htaken]
  exact ⟨_, rfl⟩

end

end Sys2Proof.Machine

namespace Sys2Proof.Proofs

open Sys2Proof Sys2Proof.Machine

set_option Elab.async false

/-- Settles O18: the two frames are of one class, and whichever blocks take them read neither the payload nor the copies. -/
theorem payloadReachesTheCopyAlone : Obligations.PayloadReachesTheCopyAlone := by
  intro s f p k hr ha hw hquiet hf hk
  have hexec (x : Frame) : exec (.frameClassified x) s = .next (State.classify s x) := takenWhen_next hr (by rw [ha]; rfl) _
  suffices halike : State.Alike (State.classify s f) (State.classify s { f with payload := p, check := k }) by
    obtain ⟨cs, hcs⟩ := halike
    exact ⟨_, _, hexec f, hexec _, by rw [hcs]⟩
  have hclass : State.classOf s { f with payload := p, check := k } = State.classOf s f := frameClass_payload rfl hf hk _
  have htaken : State.Alike (State.draw (State.taken s f)) (State.draw (State.taken s { f with payload := p, check := k })) :=
    State.draw_alike (State.taken_payload rfl hclass)
  by_cases hgood : State.classOf s f = .good
  · have hf' : State.TakesAsGood s f := ⟨hr, ha, (frameClass_good_iff _ _).1 hgood⟩
    have hg' : State.TakesAsGood s { f with payload := p, check := k } :=
      ⟨hr, ha, (frameClass_good_iff _ _).1 (hclass.trans hgood)⟩
    rcases hquiet with hi | hu
    · rw [State.classify_unwatched hf' hi hw, State.classify_unwatched hg' hi hw]
      exact State.fireSwitch_alike htaken _
    · have hrests {x : Frame} (hx : State.TakesAsGood s x) (hxu : x.uf = true) :
          State.classify s x = State.receiveSegment (State.draw (State.taken s x)) x.service (!x.uf) :=
        State.classify_quiet hx (.inl hxu) rfl (State.fireSwitch_quiet _ _ (.inl (by rw [hxu]; rfl)))
          (State.watchFrame_quiet _ _ _ _ (.inl (by rw [hxu]; rfl)))
      rw [hrests hf' hu, hrests hg' hu]
      exact State.receiveSegment_alike htaken _ _
  · have hbad {x : Frame} (hx : State.classOf s x ≠ .good) :
        State.classify s x = State.judgeQuality (State.abortCounted (State.draw (State.taken s x))) := by
      rw [State.classify_eq, if_neg hx, State.handedOn_of_bad hx]
    rw [hbad hgood, hbad (fun h => hgood (hclass.symm.trans h))]
    exact State.judgeQuality_alike (State.abortCounted_alike htaken)

end Sys2Proof.Proofs
